-- ==== Sys2Proof/Word.lean ====
section
/-! DEFINITION. The word types of the block (spec/00_scope.md R9, R10; spec/30_encoding.md R60). -/

namespace Sys2Proof

/-- A byte, `0x00..0xFF` (R9). -/
abbrev Byte := BitVec 8

/-- The width of the request field `VAL` and of a position field (R60, R68). -/
abbrev Word24 := BitVec 24

/-- The width of `RESULT` (spec/10_state.md R25). -/
abbrev Word32 := BitVec 32

end Sys2Proof
end

