-- ==== Sys2Proof/Config.lean ====
section
/-! DEFINITION. The implementation parameters of the block (spec/00_scope.md R6, R7) and the free values of those the
spec leaves OPEN. -/

namespace Sys2Proof

/-! ### Parameters to which R6 gives one value -/

/-- `START_BYTE` (R6). -/
def startByte : Byte := 0x3B#8

/-- `ADDR_PC` (R6, spec/30_encoding.md R67). -/
def addrPc : Byte := 0x20#8

/-- `ADDR_HC`, the hand controller (R6, R67). -/
def addrHc : Byte := 0x0D#8

/-- `ADDR_MOTOR`, the focuser motor (R6, R67). -/
def addrMotor : Byte := 0x12#8

/-- `ADDR_FAN` (R6, R67). -/
def addrFan : Byte := 0x13#8

/-- `ADDR_TEMP`, the temperature sensor: "equal to `ADDR_MOTOR`" (R6, R67). -/
def addrTemp : Byte := 0x12#8

/-- `CMD_GET_POSITION`, the one command code in the source (R6). -/
def cmdGetPosition : Byte := 0x01#8

/-- `FLAG_TRUE_BYTE` (R6, spec/30_encoding.md R70). -/
def flagTrueByte : Byte := 0x01#8

/-- `FLAG_FALSE_BYTE` (R6, R70). -/
def flagFalseByte : Byte := 0x00#8

/-! ### Parameters with a default, and OPEN ones -/

/-- The two values of `LEN_SET_MAX_POS` and `LEN_SET_SLEW_LIMIT`: "each `1` or `2`" (R6). -/
inductive LimitLen
  | one
  | two
  deriving DecidableEq, Repr

/-- The payload length a `LimitLen` stands for. -/
def LimitLen.toNat : LimitLen → Nat
  | .one => 1
  | .two => 2

/-- The parameters of R6 that have a default or are OPEN. Each is fixed before the first operation and changed by none
(R6, R30, R233). -/
structure Params where
  /-- `LENGTH_BYTE`: the frame carries a length byte at offset 1. -/
  lengthByte : Bool
  /-- `MAX_PAYLOAD`. -/
  maxPayload : Nat
  cmdMoveAbs : Byte
  cmdSync : Byte
  cmdGotoDone : Byte
  cmdAbort : Byte
  cmdSetMaxPos : Byte
  cmdSetSlewLimit : Byte
  cmdFanGet : Byte
  cmdFanSet : Byte
  cmdCalGet : Byte
  cmdCalSet : Byte
  cmdTempGet : Byte
  cmdGetVersion : Byte
  lenSetMaxPos : LimitLen
  lenSetSlewLimit : LimitLen
  /-- `ACK_PAYLOAD_LEN`. -/
  ackPayloadLen : Nat
  /-- `VERSION_PAYLOAD_LEN`. -/
  versionPayloadLen : Nat
  /-- `POS_SIGNED(GET_POSITION)`. -/
  posSignedGetPosition : Bool
  /-- `POS_SIGNED(MOVE_ABS)`. -/
  posSignedMoveAbs : Bool
  /-- `POS_SIGNED(SYNC)`. -/
  posSignedSync : Bool
  /-- `S12_NIBBLE_FIRST`. -/
  s12NibbleFirst : Bool
  deriving DecidableEq, Repr

/-- `H`: "`5` if `LENGTH_BYTE`, else `4`" (R6, R62). -/
def Params.h (p : Params) : Nat := if p.lengthByte then 5 else 4

/-- `MAX_FRAME = H + MAX_PAYLOAD + 1` (R6). -/
def Params.maxFrame (p : Params) : Nat := p.h + p.maxPayload + 1

/-- The ranges R6 gives the parameters. DEDUCED (log entry 8): the spec states no range for `ACK_PAYLOAD_LEN`; a frame's
payload is at most `MAX_PAYLOAD` bytes. -/
structure Params.Legal (p : Params) : Prop where
  maxPayload_ge : 4 ≤ p.maxPayload
  maxPayload_le : p.maxPayload ≤ 249
  ack_le : p.ackPayloadLen ≤ p.maxPayload
  version_ge : 1 ≤ p.versionPayloadLen
  version_le : p.versionPayloadLen ≤ p.maxPayload

/-! ### Free values: what the OPEN parameters of R6 are in the state after reset (log entry 6)

Nothing constrains them; no statement of the package rests on their values. -/

opaque Config.openCmdMoveAbs : Byte
opaque Config.openCmdSync : Byte
opaque Config.openCmdGotoDone : Byte
opaque Config.openCmdAbort : Byte
opaque Config.openCmdSetMaxPos : Byte
opaque Config.openCmdSetSlewLimit : Byte
opaque Config.openCmdFanGet : Byte
opaque Config.openCmdFanSet : Byte
opaque Config.openCmdCalGet : Byte
opaque Config.openCmdCalSet : Byte
opaque Config.openCmdTempGet : Byte
opaque Config.openCmdGetVersion : Byte
/-- Whether `LEN_SET_MAX_POS` is 2 (else it is 1). -/
opaque Config.openSetMaxPosIsTwo : Bool
/-- Whether `LEN_SET_SLEW_LIMIT` is 2 (else it is 1). -/
opaque Config.openSetSlewLimitIsTwo : Bool
/-- `VERSION_PAYLOAD_LEN` less one: in `0..15`, so that the length is in `1..MAX_PAYLOAD` for the default 16. -/
opaque Config.openVersionLenPred : Fin 16

/-- A limit length from the free Boolean that chooses it. -/
def LimitLen.ofIsTwo (b : Bool) : LimitLen := if b then .two else .one

/-- The parameters in the state after reset: R6's defaults, and a free value for each OPEN one. -/
def Params.default : Params where
  lengthByte := true
  maxPayload := 16
  cmdMoveAbs := Config.openCmdMoveAbs
  cmdSync := Config.openCmdSync
  cmdGotoDone := Config.openCmdGotoDone
  cmdAbort := Config.openCmdAbort
  cmdSetMaxPos := Config.openCmdSetMaxPos
  cmdSetSlewLimit := Config.openCmdSetSlewLimit
  cmdFanGet := Config.openCmdFanGet
  cmdFanSet := Config.openCmdFanSet
  cmdCalGet := Config.openCmdCalGet
  cmdCalSet := Config.openCmdCalSet
  cmdTempGet := Config.openCmdTempGet
  cmdGetVersion := Config.openCmdGetVersion
  lenSetMaxPos := LimitLen.ofIsTwo Config.openSetMaxPosIsTwo
  lenSetSlewLimit := LimitLen.ofIsTwo Config.openSetSlewLimitIsTwo
  ackPayloadLen := 0
  versionPayloadLen := Config.openVersionLenPred.val + 1
  posSignedGetPosition := false
  posSignedMoveAbs := false
  posSignedSync := false
  s12NibbleFirst := false

end Sys2Proof
end

