-- ==== Sys2Proof/Syntax.lean ====
section
/-! DEFINITION. The instructions: the 16 operations of the request port (spec/30_encoding.md R61) and the 13 wire
commands (spec/43_wire_commands.md R170), one constructor for each row of spec/opcode_table.json. -/

namespace Sys2Proof

/-- The 13 commands of the wire command table (R170), in its order. -/
inductive WireCmd
  | getPosition
  | moveAbs
  | sync
  | gotoDone
  | abort
  | setMaxPos
  | setSlewLimit
  | fanGet
  | fanSet
  | calGet
  | calSet
  | tempGet
  | getVersion
  deriving DecidableEq, Repr

/-- The two forms in which a wire command reaches the block, the pseudo-operations of R79. -/
inductive WireForm
  /-- `REQ X, payload=[...]`: build the command's request frame. -/
  | request (payload : List Byte)
  /-- `RSP X, in=[...]`: validate and parse the bytes received as its response. -/
  | response (received : List Byte)
  deriving DecidableEq, Repr

/-- One operation of the host's sequence. An operand `inp` is `IN[0..INLEN-1]`, and its length is `INLEN`: the bytes of
`IN` at and past `INLEN` "have no effect on any operation" (spec/20_memory.md R41). An operation carries the request fields it
reads and no other (R60). -/
inductive Instr
  | nop
  | ckClear
  | ckAdd (inp : List Byte)
  | ckRead
  | cksum (inp : List Byte)
  | ckVerify (inp : List Byte)
  | encode (src dst cmd : Byte) (inp : List Byte)
  | decode (inp : List Byte) (explen : Byte)
  | pack24 (val : Word24)
  | pack16 (val : Word24)
  | flagEnc (val : Word24)
  | unpack24u (off : Byte)
  | unpack24s (off : Byte)
  | decS12 (off : Byte)
  | flagDec (off : Byte)
  | sreset
  | getPosition (form : WireForm)
  | moveAbs (form : WireForm)
  | sync (form : WireForm)
  | gotoDone (form : WireForm)
  | abort (form : WireForm)
  | setMaxPos (form : WireForm)
  | setSlewLimit (form : WireForm)
  | fanGet (form : WireForm)
  | fanSet (form : WireForm)
  | calGet (form : WireForm)
  | calSet (form : WireForm)
  | tempGet (form : WireForm)
  | getVersion (form : WireForm)
  deriving DecidableEq, Repr

/-- The instruction of a wire command in one of its forms. -/
def WireCmd.instr : WireCmd → WireForm → Instr
  | .getPosition, f => .getPosition f
  | .moveAbs, f => .moveAbs f
  | .sync, f => .sync f
  | .gotoDone, f => .gotoDone f
  | .abort, f => .abort f
  | .setMaxPos, f => .setMaxPos f
  | .setSlewLimit, f => .setSlewLimit f
  | .fanGet, f => .fanGet f
  | .fanSet, f => .fanSet f
  | .calGet, f => .calGet f
  | .calSet, f => .calSet f
  | .tempGet, f => .tempGet f
  | .getVersion, f => .getVersion f

/-- Why a record on the port is no instruction. No `OP` value is among the reasons (R75). -/
inductive DecodeError
  /-- Bits 7:4 of the first byte are none of the three formats (log entry 2). -/
  | reservedFormat
  /-- A pseudo-operation whose command number is none of the 13 (log entry 2). -/
  | noSuchCommand
  /-- A `REQ` with a payload length no parameter value gives that command (R79, log entry 9). -/
  | payloadLength
  deriving DecidableEq, Repr

end Sys2Proof
end

