-- ==== Sys2Proof/Machine/State.lean ====
section
/-! DEFINITION. The state of the block (spec/10_state.md R20 to R26), the reasons a step can stop, and the state after
reset (R34, spec/70_reset_and_hazards.md R230). -/

namespace Sys2Proof.Machine

open Sys2Proof

/-- What the host does to the block: it issues an operation (its request record's bytes, R27, R60) or resets the hardware
(R230). -/
inductive HostEvent
  | request (record : List Byte)
  | hardwareReset
  deriving DecidableEq, Repr

/-- Everything the spec gives the machine. `params` are the parameters of R6 (log entry 6), the twelve fields after it the
registers of R20, and `port` is the model's own: the events the host has still to give the block, first one first
(R31, log entry 4). -/
structure State where
  params : Params
  /-- `ACC` (R21). -/
  acc : Byte
  /-- `STATUS` (R22). -/
  status : BitVec 3
  /-- `FAULT` (R23). -/
  fault : Bool
  /-- `OBUF[0..MAX_FRAME-1]` (R24). -/
  obuf : List Byte
  /-- `OLEN` (R24). -/
  olen : Byte
  /-- `RESULT` (R25). -/
  result : Word32
  /-- `RXF_VALID` (R26). -/
  rxfValid : Bool
  /-- `RXF_SRC` (R26). -/
  rxfSrc : Byte
  /-- `RXF_DST` (R26). -/
  rxfDst : Byte
  /-- `RXF_CMD` (R26). -/
  rxfCmd : Byte
  /-- `RXF_PLEN` (R26). -/
  rxfPlen : Byte
  /-- `RXF_PAYLOAD[0..MAX_PAYLOAD-1]` (R26). -/
  rxfPayload : List Byte
  port : List HostEvent
  deriving DecidableEq, Repr

/-- Faults that stop the machine: there are none, so nobody raises one (log entry 7). Every error of the spec is a status
after which "operations ... execute normally" (spec/60_exceptions.md R204); CONTRACT_ERROR sets the register `FAULT`.
Safe: no step ends here. -/
inductive Fault
  deriving DecidableEq, Repr

/-- Why a step has no next state. -/
inductive Refusal
  /-- Raised by exec's arm of an instruction that has no meaning in the model. Safe. -/
  | notModelled (mnemonic : String)
  /-- Raised by `step` when the record on the port is no encoding: the reason is the decoder's. Never for an operation of
  the request port, all of whose `OP` values are allocated (R75). Safe. -/
  | badRecord (why : DecodeError)
  /-- Raised by the request form of a wire command whose payload does not have `REQ_LEN` bytes: it "is refused by the
  assembler, not passed to the block" (spec/30_encoding.md R79). Safe. -/
  | requestPayloadLength
  deriving DecidableEq, Repr

/-- The state right after a hardware reset of a block with parameters `p` (R34): every register at its reset value, and the
host with nothing on the port (log entry 4). -/
def State.atReset (p : Params) : State where
  params := p
  acc := 0x00#8
  status := 0#3
  fault := false
  obuf := List.replicate p.maxFrame 0x00#8
  olen := 0#8
  result := 0x00000000#32
  rxfValid := false
  rxfSrc := 0x00#8
  rxfDst := 0x00#8
  rxfCmd := 0x00#8
  rxfPlen := 0#8
  rxfPayload := List.replicate p.maxPayload 0x00#8
  port := []

/-- The machine right after reset, with the spec's default parameters and a free value for each OPEN one. -/
def State.reset : State := State.atReset Params.default

end Sys2Proof.Machine
end

