-- ==== Sys2Proof/Machine/Flags.lean ====
section
/-! DEFINITION. The status codes (spec/60_exceptions.md R200) and what an error does to `FAULT` and `RXF_VALID`
(R203, R204). -/

namespace Sys2Proof.Machine

open Sys2Proof

/-- The statuses an operation of the block ends with. Codes 5, 6 and 7 are "never written" by it (R200). -/
inductive Status
  | ok
  | checksumError
  | frameLengthError
  | malformedStartError
  | contractError
  deriving DecidableEq, Repr

/-- The code of a status in `STATUS[2:0]` (R200). -/
def Status.code : Status → BitVec 3
  | .ok => 0#3
  | .checksumError => 1#3
  | .frameLengthError => 2#3
  | .malformedStartError => 3#3
  | .contractError => 4#3

/-- `FAULT` after a status: CONTRACT_ERROR sets it, and no status clears it (R202, R204). -/
def faultAfter (e : Status) (fault : Bool) : Bool :=
  match e with
  | .contractError => true
  | .ok => fault
  | .checksumError => fault
  | .frameLengthError => fault
  | .malformedStartError => fault

/-- `RXF_VALID` after an error: cleared "if the operation is DECODE and the code is 1, 2 or 3" (R203). -/
def rxfValidAfter (e : Status) (byDecode valid : Bool) : Bool :=
  match e with
  | .ok => valid
  | .contractError => valid
  | .checksumError => if byDecode then false else valid
  | .frameLengthError => if byDecode then false else valid
  | .malformedStartError => if byDecode then false else valid

end Sys2Proof.Machine
end

