-- ==== Sys2Proof/Machine/Operands.lean ====
section
/-! DEFINITION. The operand forms and the functions on bytes that every family uses: sums and the checksum
(spec/40_checksum.md R100), the frame (spec/41_frame_builder.md R120), the payload field layouts
(spec/30_encoding.md R68 to R71). -/

namespace Sys2Proof.Machine

open Sys2Proof

/-- `Σ s`: the sum of the bytes "as an unbounded non-negative integer" (spec/00_scope.md R9). -/
def byteSum (s : List Byte) : Nat := (s.map BitVec.toNat).sum

/-- `checksum(s) = (256 - (Σ s mod 256)) mod 256` (R100). -/
def checksum (s : List Byte) : Byte := BitVec.ofNat 8 ((256 - byteSum s % 256) % 256)

/-- Whether the sum of the bytes is `0` mod 256 (R101, R107). -/
def sumsToZero (s : List Byte) : Bool := byteSum s % 256 == 0

/-- Every byte after the start marker except the checksum: `hdr ++ p` (R120). -/
def frameBody (c : Params) (src dst cmd : Byte) (p : List Byte) : List Byte :=
  (if c.lengthByte then [BitVec.ofNat 8 (p.length + 3)] else []) ++ [src, dst, cmd] ++ p

/-- `frame(src, dst, cmd, p)` (R120, spec/30_encoding.md R62). -/
def frame (c : Params) (src dst cmd : Byte) (p : List Byte) : List Byte :=
  [startByte] ++ frameBody c src dst cmd p ++ [checksum (frameBody c src dst cmd p)]

/-- A buffer of `n` bytes that begins with `bs` and holds `0x00` after it (spec/10_state.md R24, R26). -/
def padTo (n : Nat) (bs : List Byte) : List Byte := bs ++ List.replicate (n - bs.length) 0x00#8

/-- `IN[k]`. The operations index `IN` only below `INLEN` (spec/20_memory.md R40). -/
def inputByte (inp : List Byte) (k : Nat) : Byte := inp.getD k 0x00#8

/-- `RXF_PAYLOAD[k]`. The extractors index it only below `RXF_PLEN` (spec/42_response_parser.md R144). -/
def State.payloadByte (s : State) (k : Nat) : Byte := s.rxfPayload.getD k 0x00#8

/-- The check of R144: a field of `w` bytes at `OFF` lies in a decoded payload. -/
def State.fieldReadable (s : State) (off : Byte) (w : Nat) : Bool :=
  s.rxfValid && decide (off.toNat + w ≤ s.rxfPlen.toNat)

/-- The 24-bit little-endian field at `OFF` (spec/30_encoding.md R68): `b0 | (b1 << 8) | (b2 << 16)`. -/
def State.field24 (s : State) (off : Byte) : Word24 :=
  s.payloadByte (off.toNat + 2) ++ s.payloadByte (off.toNat + 1) ++ s.payloadByte off.toNat

/-- The raw 12-bit field at `OFF` (R71): the low nibble of the nibble byte above the low byte. -/
def State.field12 (s : State) (off : Byte) : BitVec 12 :=
  let first := s.payloadByte off.toNat
  let second := s.payloadByte (off.toNat + 1)
  let nb := if s.params.s12NibbleFirst then first else second
  let lo := if s.params.s12NibbleFirst then second else first
  nb.extractLsb' 0 4 ++ lo

/-- The bytes of `VAL`, lowest first (R43, R122). -/
def valBytes24 (val : Word24) : List Byte :=
  [val.extractLsb' 0 8, val.extractLsb' 8 8, val.extractLsb' 16 8]

/-- The two low bytes of `VAL`, lowest first (R44, R123). -/
def valBytes16 (val : Word24) : List Byte := [val.extractLsb' 0 8, val.extractLsb' 8 8]

/-- The byte a request carries for a Boolean (R70, R124). -/
def flagByte (on : Bool) : Byte := if on then flagTrueByte else flagFalseByte

/-- What `RESULT` holds for a Boolean (R107, R149). -/
def boolWord (b : Bool) : Word32 := if b then 1#32 else 0#32

/-- The ticks a 24-bit position field is read as (R68). -/
def ticks (signed : Bool) (u : Word24) : Int := if signed then u.toInt else (u.toNat : Int)

/-- The block's output, `OBUF[0..OLEN-1]` (spec/10_state.md R24). -/
def State.output (s : State) : List Byte := s.obuf.take s.olen.toNat

end Sys2Proof.Machine
end

