-- ==== Sys2Proof/Machine/Ops.lean ====
section
/-! DEFINITION. The named updates of the registers. Every meaning is made of these: an operation either raises one error
(`State.raise`, spec/60_exceptions.md R203) or writes its results and completes (`State.complete`, spec/10_state.md R22). -/

namespace Sys2Proof.Machine

open Sys2Proof

/-- `raise <Status>`: the block's exception entry, and all that an error writes (R203). It transfers no control and saves
nothing else (R209), so there is no return from it (R210). -/
def State.raise (s : State) (byDecode : Bool) (e : Status) : State :=
  { s with
    status := e.code
    fault := faultAfter e s.fault
    rxfValid := rxfValidAfter e byDecode s.rxfValid }

/-- The end of an operation without an error: `STATUS <- 0` (R22). -/
def State.complete (s : State) : State := { s with status := Status.ok.code }

/-- `ACC <- v` (R21). -/
def State.setAcc (s : State) (v : Byte) : State := { s with acc := v }

/-- `RESULT <- v` (R25). -/
def State.setResult (s : State) (v : Word32) : State := { s with result := v }

/-- A write of the output buffer: `OLEN` and every byte of `OBUF`, zero past `OLEN` (R24). -/
def State.writeOut (s : State) (bs : List Byte) : State :=
  { s with obuf := padTo s.params.maxFrame bs, olen := BitVec.ofNat 8 bs.length }

/-- The parse of a frame that passed every check (spec/42_response_parser.md R140, step 6). -/
def State.acceptFrame (s : State) (inp : List Byte) : State :=
  let n := inp.length - s.params.h - 1
  { s with
    rxfSrc := inputByte inp (s.params.h - 3)
    rxfDst := inputByte inp (s.params.h - 2)
    rxfCmd := inputByte inp (s.params.h - 1)
    rxfPlen := BitVec.ofNat 8 n
    rxfPayload := padTo s.params.maxPayload ((inp.drop s.params.h).take n)
    rxfValid := true }

/-- A hardware reset (spec/70_reset_and_hazards.md R230): every register at its reset value. The parameters and the host's
remaining events are no registers. -/
def State.hardwareReset (s : State) : State := { State.atReset s.params with port := s.port }

/-- The registers after a software reset: as a hardware reset, but `FAULT` stays (R231). -/
def State.softReset (s : State) : State := { s.hardwareReset with fault := s.fault }

/-- The host has given the block the first event of the port. -/
def State.withPort (s : State) (rest : List HostEvent) : State := { s with port := rest }

/-- An operation that ends with an error other than DECODE's own. -/
def contractError (s : State) : Host.Outcome State Fault Refusal := .next (s.raise false .contractError)

/-- A DECODE that ends with an error. -/
def decodeError (s : State) (e : Status) : Host.Outcome State Fault Refusal := .next (s.raise true e)

end Sys2Proof.Machine
end

