-- ==== Sys2Proof/Machine/Builder.lean ====
section
/-! DEFINITION. The command frame builder and the packers (spec/41_frame_builder.md R121 to R124). -/

namespace Sys2Proof.Machine

open Sys2Proof

/-- Builds a frame into the output buffer, or refuses a payload beyond `MAX_PAYLOAD` (R121). -/
def buildFrame (src dst cmd : Byte) (payload : List Byte) (s : State) : Host.Outcome State Fault Refusal :=
  if payload.length > s.params.maxPayload then contractError s
  else .next (s.writeOut (frame s.params src dst cmd payload)).complete

/-- ENCODE (R121). -/
def execEncode (src dst cmd : Byte) (inp : List Byte) (s : State) : Host.Outcome State Fault Refusal :=
  buildFrame src dst cmd inp s

/-- PACK24 (R122). -/
def execPack24 (val : Word24) (s : State) : Host.Outcome State Fault Refusal :=
  .next (s.writeOut (valBytes24 val)).complete

/-- PACK16 (R123): "if VAL[23:16] != 0: raise CONTRACT_ERROR". -/
def execPack16 (val : Word24) (s : State) : Host.Outcome State Fault Refusal :=
  if val.extractLsb' 16 8 ≠ 0#8 then contractError s
  else .next (s.writeOut (valBytes16 val)).complete

/-- FLAG_ENC (R124). -/
def execFlagEnc (val : Word24) (s : State) : Host.Outcome State Fault Refusal :=
  .next (s.writeOut [flagByte (val != 0#24)]).complete

end Sys2Proof.Machine
end

