-- ==== Sys2Proof/Machine/Checksum.lean ====
section
/-! DEFINITION. The checksum generator: the streaming accumulator and the pure checksum operations
(spec/40_checksum.md R103 to R107). -/

namespace Sys2Proof.Machine

open Sys2Proof

/-- CK_CLEAR (R103). -/
def execCkClear (s : State) : Host.Outcome State Fault Refusal := .next (s.setAcc 0x00#8).complete

/-- CK_ADD (R104). -/
def execCkAdd (inp : List Byte) (s : State) : Host.Outcome State Fault Refusal :=
  if inp.length > s.params.maxFrame then contractError s
  else .next (s.setAcc (BitVec.ofNat 8 ((s.acc.toNat + byteSum inp) % 256))).complete

/-- CK_READ (R105). -/
def execCkRead (s : State) : Host.Outcome State Fault Refusal :=
  .next (s.setResult (BitVec.ofNat 32 ((256 - s.acc.toNat) % 256))).complete

/-- CKSUM (R106). -/
def execCksum (inp : List Byte) (s : State) : Host.Outcome State Fault Refusal :=
  if inp.length > s.params.maxFrame then contractError s
  else .next (s.setResult ((checksum inp).setWidth 32)).complete

/-- CK_VERIFY (R107). -/
def execCkVerify (inp : List Byte) (s : State) : Host.Outcome State Fault Refusal :=
  if inp.length > s.params.maxFrame then contractError s
  else .next (s.setResult (boolWord (sumsToZero inp))).complete

end Sys2Proof.Machine
end

