-- ==== Sys2Proof/Machine/Control.lean ====
section
/-! DEFINITION. The control operations NOP and SRESET (spec/40_checksum.md R109, R110). -/

namespace Sys2Proof.Machine

open Sys2Proof

/-- NOP: "no register is written" (R109). -/
def execNop (s : State) : Host.Outcome State Fault Refusal := .next s

/-- SRESET: the reset values in every register except `FAULT`, "and then `STATUS <- 0`" (R110). -/
def execSreset (s : State) : Host.Outcome State Fault Refusal := .next s.softReset.complete

end Sys2Proof.Machine
end

