-- ==== Sys2Proof/Machine/Parser.lean ====
section
/-! DEFINITION. The response frame validator and parser, and the field extractors
(spec/42_response_parser.md R140, R144 to R149). -/

namespace Sys2Proof.Machine

open Sys2Proof

/-- Step 5 of R140: the length byte, where there is one, is not `INLEN - 3`. -/
def lengthByteWrong (p : Params) (inp : List Byte) : Bool :=
  p.lengthByte && (inputByte inp 1).toNat != inp.length - 3

/-- The validation of R140, "in this order, and the first that fails ends the operation", and then the parse. -/
def parseFrame (inp : List Byte) (explen : Nat) (s : State) : Host.Outcome State Fault Refusal :=
  if explen < s.params.h + 1 ∨ explen > s.params.maxFrame ∨ inp.length > s.params.maxFrame then
    decodeError s .contractError
  else if inp.length ≠ explen then decodeError s .frameLengthError
  else if inputByte inp 0 ≠ startByte then decodeError s .malformedStartError
  else if !sumsToZero (inp.drop 1) then decodeError s .checksumError
  else if lengthByteWrong s.params inp then decodeError s .frameLengthError
  else .next (s.acceptFrame inp).complete

/-- DECODE (R140). -/
def execDecode (inp : List Byte) (explen : Byte) (s : State) : Host.Outcome State Fault Refusal :=
  parseFrame inp explen.toNat s

/-- A field extractor: the check of R144 for a field of `w` bytes, then `RESULT <- v`. -/
def extractField (off : Byte) (w : Nat) (v : Word32) (s : State) : Host.Outcome State Fault Refusal :=
  if s.fieldReadable off w then .next (s.setResult v).complete else contractError s

/-- UNPACK24U (R145). -/
def execUnpack24u (off : Byte) (s : State) : Host.Outcome State Fault Refusal :=
  extractField off 3 ((s.field24 off).setWidth 32) s

/-- UNPACK24S (R146). -/
def execUnpack24s (off : Byte) (s : State) : Host.Outcome State Fault Refusal :=
  extractField off 3 ((s.field24 off).signExtend 32) s

/-- DEC_S12 (R147). -/
def execDecS12 (off : Byte) (s : State) : Host.Outcome State Fault Refusal :=
  extractField off 2 ((s.field12 off).signExtend 32) s

/-- FLAG_DEC (R149). -/
def execFlagDec (off : Byte) (s : State) : Host.Outcome State Fault Refusal :=
  extractField off 1 (boolWord (s.payloadByte off.toNat != 0x00#8)) s

end Sys2Proof.Machine
end

