-- ==== Sys2Proof/Machine/Wire.lean ====
section
/-! DEFINITION. The wire commands (spec/43_wire_commands.md R170 to R184): the table of their static data, and the two forms
in which a command reaches the block (spec/30_encoding.md R79). What the device does with a frame is outside the block
(log entry 3). -/

namespace Sys2Proof.Machine

open Sys2Proof

/-! ### The table of R170 -/

/-- `CMD(X)`. -/
def cmdCode (p : Params) : WireCmd → Byte
  | .getPosition => cmdGetPosition
  | .moveAbs => p.cmdMoveAbs
  | .sync => p.cmdSync
  | .gotoDone => p.cmdGotoDone
  | .abort => p.cmdAbort
  | .setMaxPos => p.cmdSetMaxPos
  | .setSlewLimit => p.cmdSetSlewLimit
  | .fanGet => p.cmdFanGet
  | .fanSet => p.cmdFanSet
  | .calGet => p.cmdCalGet
  | .calSet => p.cmdCalSet
  | .tempGet => p.cmdTempGet
  | .getVersion => p.cmdGetVersion

/-- `DST(X)`. -/
def cmdDst : WireCmd → Byte
  | .getPosition => addrMotor
  | .moveAbs => addrMotor
  | .sync => addrMotor
  | .gotoDone => addrMotor
  | .abort => addrMotor
  | .setMaxPos => addrMotor
  | .setSlewLimit => addrMotor
  | .fanGet => addrFan
  | .fanSet => addrFan
  | .calGet => addrMotor
  | .calSet => addrMotor
  | .tempGet => addrTemp
  | .getVersion => addrMotor

/-- `REQ_LEN(X)`. -/
def reqLen (p : Params) : WireCmd → Nat
  | .getPosition => 0
  | .moveAbs => 3
  | .sync => 3
  | .gotoDone => 0
  | .abort => 0
  | .setMaxPos => p.lenSetMaxPos.toNat
  | .setSlewLimit => p.lenSetSlewLimit.toNat
  | .fanGet => 0
  | .fanSet => 1
  | .calGet => 0
  | .calSet => 1
  | .tempGet => 0
  | .getVersion => 0

/-- `RSP_LEN(X)`. -/
def rspLen (p : Params) : WireCmd → Nat
  | .getPosition => 3
  | .moveAbs => p.ackPayloadLen
  | .sync => p.ackPayloadLen
  | .gotoDone => 1
  | .abort => p.ackPayloadLen
  | .setMaxPos => p.ackPayloadLen
  | .setSlewLimit => p.ackPayloadLen
  | .fanGet => 1
  | .fanSet => 1
  | .calGet => 1
  | .calSet => 1
  | .tempGet => 4
  | .getVersion => p.versionPayloadLen

/-- `EXPLEN` of a command's response: `H + RSP_LEN(X) + 1` (R170, R79). -/
def rspExplen (p : Params) (c : WireCmd) : Nat := p.h + rspLen p c + 1

/-- The packer of a limit command's request: PACK16 for 2 bytes, none for "1 raw byte" (R170). -/
def limitPacker (len : LimitLen) (val : Word24) : Option Instr :=
  match len with
  | .one => none
  | .two => some (.pack16 val)

/-- The operation that packs a request's payload, where the table names one (R170): its output is the payload the host then
gives the `REQ` (spec/41_frame_builder.md R125). -/
def requestPacker (p : Params) (val : Word24) : WireCmd → Option Instr
  | .getPosition => none
  | .moveAbs => some (.pack24 val)
  | .sync => some (.pack24 val)
  | .gotoDone => none
  | .abort => none
  | .setMaxPos => limitPacker p.lenSetMaxPos val
  | .setSlewLimit => limitPacker p.lenSetSlewLimit val
  | .fanGet => none
  | .fanSet => some (.flagEnc val)
  | .calGet => none
  | .calSet => some (.flagEnc val)
  | .tempGet => none
  | .getVersion => none

/-- The operations that read the fields of a command's response, in the table's order (R170; the primary sensor before the
secondary, R72). -/
def responseReaders (p : Params) : WireCmd → List Instr
  | .getPosition => [if p.posSignedGetPosition then .unpack24s 0#8 else .unpack24u 0#8]
  | .moveAbs => []
  | .sync => []
  | .gotoDone => [.flagDec 0#8]
  | .abort => []
  | .setMaxPos => []
  | .setSlewLimit => []
  | .fanGet => [.flagDec 0#8]
  | .fanSet => [.flagDec 0#8]
  | .calGet => [.flagDec 0#8]
  | .calSet => [.flagDec 0#8]
  | .tempGet => [.decS12 0#8, .decS12 2#8]
  | .getVersion => []

/-- `POS_SIGNED(X)`, for the position-class commands (spec/00_scope.md R6, R14). -/
def posSigned (p : Params) : WireCmd → Option Bool
  | .getPosition => some p.posSignedGetPosition
  | .moveAbs => some p.posSignedMoveAbs
  | .sync => some p.posSignedSync
  | .gotoDone => none
  | .abort => none
  | .setMaxPos => none
  | .setSlewLimit => none
  | .fanGet => none
  | .fanSet => none
  | .calGet => none
  | .calSet => none
  | .tempGet => none
  | .getVersion => none

/-- The ticks a position field `b0 b1 b2` of a position-class command is read as (spec/30_encoding.md R68). The block only
moves the bytes; this is what they stand for. -/
def positionTicks (p : Params) (c : WireCmd) (b0 b1 b2 : Byte) : Option Int :=
  (posSigned p c).map fun signed => ticks signed (b2 ++ b1 ++ b0)

/-! ### The meanings -/

/-- `REQ X, payload=[...]`: "A payload of any other length is refused by the assembler, not passed to the block" (R79). -/
def sendRequest (c : WireCmd) (payload : List Byte) (s : State) : Host.Outcome State Fault Refusal :=
  if payload.length = reqLen s.params c then buildFrame addrPc (cmdDst c) (cmdCode s.params c) payload s
  else .refused .requestPayloadLength

/-- A wire command in either form: `REQ X` builds its request frame, `RSP X` parses its response frame (R79). -/
def execWire (c : WireCmd) (form : WireForm) (s : State) : Host.Outcome State Fault Refusal :=
  match form with
  | .request payload => sendRequest c payload s
  | .response received => parseFrame received (rspExplen s.params c) s

/-- GET_POSITION (R171). -/
def execGetPosition (form : WireForm) (s : State) : Host.Outcome State Fault Refusal := execWire .getPosition form s

/-- MOVE_ABS (R172). -/
def execMoveAbs (form : WireForm) (s : State) : Host.Outcome State Fault Refusal := execWire .moveAbs form s

/-- SYNC (R174). -/
def execSync (form : WireForm) (s : State) : Host.Outcome State Fault Refusal := execWire .sync form s

/-- GOTO_DONE (R175). -/
def execGotoDone (form : WireForm) (s : State) : Host.Outcome State Fault Refusal := execWire .gotoDone form s

/-- ABORT (R176). -/
def execAbort (form : WireForm) (s : State) : Host.Outcome State Fault Refusal := execWire .abort form s

/-- SET_MAX_POS (R177). -/
def execSetMaxPos (form : WireForm) (s : State) : Host.Outcome State Fault Refusal := execWire .setMaxPos form s

/-- SET_SLEW_LIMIT (R178). -/
def execSetSlewLimit (form : WireForm) (s : State) : Host.Outcome State Fault Refusal := execWire .setSlewLimit form s

/-- FAN_GET (R179). -/
def execFanGet (form : WireForm) (s : State) : Host.Outcome State Fault Refusal := execWire .fanGet form s

/-- FAN_SET (R180). -/
def execFanSet (form : WireForm) (s : State) : Host.Outcome State Fault Refusal := execWire .fanSet form s

/-- CAL_GET (R181). -/
def execCalGet (form : WireForm) (s : State) : Host.Outcome State Fault Refusal := execWire .calGet form s

/-- CAL_SET (R182). -/
def execCalSet (form : WireForm) (s : State) : Host.Outcome State Fault Refusal := execWire .calSet form s

/-- TEMP_GET (R183). -/
def execTempGet (form : WireForm) (s : State) : Host.Outcome State Fault Refusal := execWire .tempGet form s

/-- GET_VERSION (R184). -/
def execGetVersion (form : WireForm) (s : State) : Host.Outcome State Fault Refusal := execWire .getVersion form s

end Sys2Proof.Machine
end

