-- ==== Sys2Proof/Machine/Dispatch.lean ====
section
/-! DEFINITION. One arm for each instruction. -/

namespace Sys2Proof.Machine

open Sys2Proof

def exec (i : Instr) (s : State) : Host.Outcome State Fault Refusal :=
  match i with
  | .nop => Sys2Proof.Machine.execNop s
  | .ckClear => Sys2Proof.Machine.execCkClear s
  | .ckAdd inp => Sys2Proof.Machine.execCkAdd inp s
  | .ckRead => Sys2Proof.Machine.execCkRead s
  | .cksum inp => Sys2Proof.Machine.execCksum inp s
  | .ckVerify inp => Sys2Proof.Machine.execCkVerify inp s
  | .encode src dst cmd inp => Sys2Proof.Machine.execEncode src dst cmd inp s
  | .decode inp explen => Sys2Proof.Machine.execDecode inp explen s
  | .pack24 val => Sys2Proof.Machine.execPack24 val s
  | .pack16 val => Sys2Proof.Machine.execPack16 val s
  | .flagEnc val => Sys2Proof.Machine.execFlagEnc val s
  | .unpack24u off => Sys2Proof.Machine.execUnpack24u off s
  | .unpack24s off => Sys2Proof.Machine.execUnpack24s off s
  | .decS12 off => Sys2Proof.Machine.execDecS12 off s
  | .flagDec off => Sys2Proof.Machine.execFlagDec off s
  | .sreset => Sys2Proof.Machine.execSreset s
  | .getPosition form => Sys2Proof.Machine.execGetPosition form s
  | .moveAbs form => Sys2Proof.Machine.execMoveAbs form s
  | .sync form => Sys2Proof.Machine.execSync form s
  | .gotoDone form => Sys2Proof.Machine.execGotoDone form s
  | .abort form => Sys2Proof.Machine.execAbort form s
  | .setMaxPos form => Sys2Proof.Machine.execSetMaxPos form s
  | .setSlewLimit form => Sys2Proof.Machine.execSetSlewLimit form s
  | .fanGet form => Sys2Proof.Machine.execFanGet form s
  | .fanSet form => Sys2Proof.Machine.execFanSet form s
  | .calGet form => Sys2Proof.Machine.execCalGet form s
  | .calSet form => Sys2Proof.Machine.execCalSet form s
  | .tempGet form => Sys2Proof.Machine.execTempGet form s
  | .getVersion form => Sys2Proof.Machine.execGetVersion form s

end Sys2Proof.Machine
end

