-- ==== Sys2Proof/WellFormed.lean ====
section
/-! DEFINITION. Which instructions are well formed: the field widths of spec/30_encoding.md R60 and the payload lengths
of spec/43_wire_commands.md R170. -/

namespace Sys2Proof

/-- The request payload lengths the table gives a command, over all values of its parameters (R170, R6). -/
def WireCmd.reqLenClass : WireCmd → List Nat
  | .getPosition => [0]
  | .moveAbs => [3]
  | .sync => [3]
  | .gotoDone => [0]
  | .abort => [0]
  | .setMaxPos => [1, 2]
  | .setSlewLimit => [1, 2]
  | .fanGet => [0]
  | .fanSet => [1]
  | .calGet => [0]
  | .calSet => [1]
  | .tempGet => [0]
  | .getVersion => [0]

/-- `INLEN` is an 8-bit field (R60). -/
def inputFits (inp : List Byte) : Bool := decide (inp.length ≤ 255)

/-- A wire command's operand: a request payload of a length the table allows (R79), or received bytes that `INLEN` can
count. -/
def WireCmd.formOk (c : WireCmd) : WireForm → Bool
  | .request payload => c.reqLenClass.contains payload.length
  | .response received => inputFits received

/-- The check. Every value of the fields of fixed width is legal as syntax. -/
def Instr.wellFormed : Instr → Bool
  | .nop => true
  | .ckClear => true
  | .ckAdd inp => inputFits inp
  | .ckRead => true
  | .cksum inp => inputFits inp
  | .ckVerify inp => inputFits inp
  | .encode _ _ _ inp => inputFits inp
  | .decode inp _ => inputFits inp
  | .pack24 _ => true
  | .pack16 _ => true
  | .flagEnc _ => true
  | .unpack24u _ => true
  | .unpack24s _ => true
  | .decS12 _ => true
  | .flagDec _ => true
  | .sreset => true
  | .getPosition f => WireCmd.getPosition.formOk f
  | .moveAbs f => WireCmd.moveAbs.formOk f
  | .sync f => WireCmd.sync.formOk f
  | .gotoDone f => WireCmd.gotoDone.formOk f
  | .abort f => WireCmd.abort.formOk f
  | .setMaxPos f => WireCmd.setMaxPos.formOk f
  | .setSlewLimit f => WireCmd.setSlewLimit.formOk f
  | .fanGet f => WireCmd.fanGet.formOk f
  | .fanSet f => WireCmd.fanSet.formOk f
  | .calGet f => WireCmd.calGet.formOk f
  | .calSet f => WireCmd.calSet.formOk f
  | .tempGet f => WireCmd.tempGet.formOk f
  | .getVersion f => WireCmd.getVersion.formOk f

end Sys2Proof
end

