-- ==== Sys2Proof/Decode.lean ====
section
/-! DEFINITION. The decoder of request records, total on any bytes, and after it the encoder.

The record (spec/30_encoding.md R60) as bytes, DESIGN CHOICE (log entry 1): the spec gives the fields and their widths, and
no layout beyond `OP[3:0]`.

| byte | 0 | 1 | 2 | 3 | 4 | 5 | 6, 7, 8 | 9 | 10 + k |
|---|---|---|---|---|---|---|---|---|---|
| field | bits 3:0 `OP`, bits 7:4 format | `SRC` | `DST` | `CMD` | `INLEN` | `EXPLEN` | `VAL`, low byte first | `OFF` | `IN[k]` |

A byte the record does not have reads as zero: "A field left out is `0`" (R78). Formats, DESIGN CHOICE (log entry 2): 0 is an
operation request; 1 is `REQ X` and 2 is `RSP X` (R79), where bits 3:0 number the command by its row of R170. -/

namespace Sys2Proof

/-- One byte of a record; zero past its end. -/
def recordByte (r : List Byte) (k : Nat) : Byte := r.getD k 0#8

/-- `OP[3:0]` as a number. -/
def recordOp (r : List Byte) : Nat := ((recordByte r 0).extractLsb' 0 4).toNat

/-- The format: bits 7:4 of byte 0, as a number. -/
def recordFormat (r : List Byte) : Nat := ((recordByte r 0).extractLsb' 4 4).toNat

def recordSrc (r : List Byte) : Byte := recordByte r 1
def recordDst (r : List Byte) : Byte := recordByte r 2
def recordCmd (r : List Byte) : Byte := recordByte r 3
def recordInlen (r : List Byte) : Byte := recordByte r 4
def recordExplen (r : List Byte) : Byte := recordByte r 5
def recordVal (r : List Byte) : Word24 := recordByte r 8 ++ recordByte r 7 ++ recordByte r 6
def recordOff (r : List Byte) : Byte := recordByte r 9

/-- `IN[0..INLEN-1]`: only these bytes of `IN` are read (spec/20_memory.md R41). -/
def recordInput (r : List Byte) : List Byte :=
  (List.range (recordInlen r).toNat).map fun k => recordByte r (10 + k)

/-- The operation `OP` selects, with the fields it reads (R60, R61). `OP` has 4 bits, so the last arm is `0xF`. -/
def decodeOp (r : List Byte) : Instr :=
  match recordOp r with
  | 0x0 => .nop
  | 0x1 => .ckClear
  | 0x2 => .ckAdd (recordInput r)
  | 0x3 => .ckRead
  | 0x4 => .cksum (recordInput r)
  | 0x5 => .ckVerify (recordInput r)
  | 0x6 => .encode (recordSrc r) (recordDst r) (recordCmd r) (recordInput r)
  | 0x7 => .decode (recordInput r) (recordExplen r)
  | 0x8 => .pack24 (recordVal r)
  | 0x9 => .pack16 (recordVal r)
  | 0xA => .flagEnc (recordVal r)
  | 0xB => .unpack24u (recordOff r)
  | 0xC => .unpack24s (recordOff r)
  | 0xD => .decS12 (recordOff r)
  | 0xE => .flagDec (recordOff r)
  | _ => .sreset

/-- The command of a number: its row of the table of R170 (log entry 2). -/
def WireCmd.ofNumber : Nat → Option WireCmd
  | 0 => some .getPosition
  | 1 => some .moveAbs
  | 2 => some .sync
  | 3 => some .gotoDone
  | 4 => some .abort
  | 5 => some .setMaxPos
  | 6 => some .setSlewLimit
  | 7 => some .fanGet
  | 8 => some .fanSet
  | 9 => some .calGet
  | 10 => some .calSet
  | 11 => some .tempGet
  | 12 => some .getVersion
  | _ => none

/-- A pseudo-operation (R79). A `REQ` whose payload length the table rules out is refused, as the assembler does. -/
def decodeWire (form : List Byte → WireForm) (r : List Byte) : Except DecodeError Instr :=
  match WireCmd.ofNumber (recordOp r) with
  | none => .error .noSuchCommand
  | some c =>
    if c.formOk (form (recordInput r)) then .ok (c.instr (form (recordInput r))) else .error .payloadLength

/-- The decoder: total, rejecting by name. -/
def decode (r : List Byte) : Except DecodeError Instr :=
  match recordFormat r with
  | 0 => .ok (decodeOp r)
  | 1 => decodeWire .request r
  | 2 => decodeWire .response r
  | _ => .error .reservedFormat

/-! ### The encoder, from the same tables -/

/-- The fields of a record that an encoded instruction sets; a field left out is zero (R78). -/
structure RecordFields where
  first : Byte
  src : Byte := 0#8
  dst : Byte := 0#8
  cmd : Byte := 0#8
  explen : Byte := 0#8
  val : Word24 := 0#24
  off : Byte := 0#8
  inp : List Byte := []
  deriving DecidableEq, Repr

/-- The bytes of a record. -/
def recordBytes (f : RecordFields) : List Byte :=
  [f.first, f.src, f.dst, f.cmd, BitVec.ofNat 8 f.inp.length, f.explen,
    f.val.extractLsb' 0 8, f.val.extractLsb' 8 8, f.val.extractLsb' 16 8, f.off] ++ f.inp

/-- The record of a pseudo-operation on the command of a number. -/
def encodeWire (number : Nat) : WireForm → List Byte
  | .request payload => recordBytes { first := BitVec.ofNat 8 (0x10 + number), inp := payload }
  | .response received => recordBytes { first := BitVec.ofNat 8 (0x20 + number), inp := received }

/-- The words of an instruction. -/
def encode : Instr → List Byte
  | .nop => recordBytes { first := 0x00#8 }
  | .ckClear => recordBytes { first := 0x01#8 }
  | .ckAdd inp => recordBytes { first := 0x02#8, inp := inp }
  | .ckRead => recordBytes { first := 0x03#8 }
  | .cksum inp => recordBytes { first := 0x04#8, inp := inp }
  | .ckVerify inp => recordBytes { first := 0x05#8, inp := inp }
  | .encode src dst cmd inp => recordBytes { first := 0x06#8, src := src, dst := dst, cmd := cmd, inp := inp }
  | .decode inp explen => recordBytes { first := 0x07#8, explen := explen, inp := inp }
  | .pack24 val => recordBytes { first := 0x08#8, val := val }
  | .pack16 val => recordBytes { first := 0x09#8, val := val }
  | .flagEnc val => recordBytes { first := 0x0A#8, val := val }
  | .unpack24u off => recordBytes { first := 0x0B#8, off := off }
  | .unpack24s off => recordBytes { first := 0x0C#8, off := off }
  | .decS12 off => recordBytes { first := 0x0D#8, off := off }
  | .flagDec off => recordBytes { first := 0x0E#8, off := off }
  | .sreset => recordBytes { first := 0x0F#8 }
  | .getPosition f => encodeWire 0 f
  | .moveAbs f => encodeWire 1 f
  | .sync f => encodeWire 2 f
  | .gotoDone f => encodeWire 3 f
  | .abort f => encodeWire 4 f
  | .setMaxPos f => encodeWire 5 f
  | .setSlewLimit f => encodeWire 6 f
  | .fanGet f => encodeWire 7 f
  | .fanSet f => encodeWire 8 f
  | .calGet f => encodeWire 9 f
  | .calSet f => encodeWire 10 f
  | .tempGet f => encodeWire 11 f
  | .getVersion f => encodeWire 12 f

/-! ### Words numbered as spec/opcode_table.json numbers them -/

/-- The record whose first bytes are the `nbits` bits of `w`, lowest byte first, and whose other bits are zero. -/
def tableRecord (nbits w : Nat) : List Byte :=
  let n := (nbits + 7) / 8
  (List.range n).map (fun k => BitVec.ofNat 8 (w / 256 ^ k)) ++ List.replicate (10 - n) 0#8

/-- The instruction the decoder reads from a word of the table. The table's own two formats overlap in the word `0x01`
(CK_CLEAR under mask 0xF, GET_POSITION's command byte under mask 0xFF); the request port's reading is taken (log entry 2). -/
def decodeTableWord (nbits w : Nat) : Option Instr :=
  match decode (tableRecord nbits w) with
  | .ok i => some i
  | .error _ => none

end Sys2Proof
end

