-- ==== Sys2Proof/Machine/Fetch.lean ====
section
/-! DEFINITION. The next operation of the host's sequence (spec/10_state.md R31; log entries 4 and 5). -/

namespace Sys2Proof.Machine

open Sys2Proof

/-- What the next step is to do. -/
inductive Fetched
  /-- The host gives nothing: the registers keep their values between operations. -/
  | idle
  | reset
  | run (i : Instr)
  | reject (why : DecodeError)
  deriving DecidableEq, Repr

/-- The first event of the port, decoded. -/
def State.fetch (s : State) : Fetched :=
  match s.port with
  | [] => .idle
  | .hardwareReset :: _ => .reset
  | .request record :: _ =>
    match decode record with
    | .ok i => .run i
    | .error e => .reject e

/-- The state in which the fetched event happens: the event has left the port. -/
def State.consume (s : State) : State := s.withPort s.port.tail

/-- The host puts a record before whatever it has still to give. -/
def State.issue (s : State) (record : List Byte) : State := s.withPort (.request record :: s.port)

/-- The host puts these instructions, encoded and in order, before whatever it has still to give. -/
def State.issueAll (s : State) (is : List Instr) : State :=
  s.withPort (is.map (fun i => HostEvent.request (encode i)) ++ s.port)

end Sys2Proof.Machine
end

