-- ==== Sys2Proof/Machine/Step.lean ====
section
/-! DEFINITION. One step: the next event the host gives the block takes effect as a whole (spec/10_state.md R32,
spec/20_memory.md R49). -/

namespace Sys2Proof.Machine

open Sys2Proof

/-- One step. An operation is executed in the state without its own event (R27: the block keeps no field of a request); a
hardware reset resets (R230); with nothing given, nothing changes (log entry 4). -/
def step (s : State) : Host.Outcome State Fault Refusal :=
  match s.fetch with
  | .idle => .next s
  | .reset => .next s.consume.hardwareReset
  | .run i => exec i s.consume
  | .reject e => .refused (.badRecord e)

/-- The record whose bits are `w` (numbered as spec/opcode_table.json numbers them) is the next the host gives. -/
def State.withFetchWord (s : State) (nbits w : Nat) : State := s.issue (tableRecord nbits w)

end Sys2Proof.Machine
end

