-- ==== Sys2Proof/Safety.lean ====
section
/-! DEFINITION. What a good state and a good run are, in the terms claims use. -/

namespace Sys2Proof.Machine

open Sys2Proof

/-- The invariant of the registers. Every part is a rule of the spec: the ranges of spec/00_scope.md R6; the buffers and
lengths of spec/10_state.md R20; zero past `OLEN` (R24) and past `RXF_PLEN` (R26); the codes of `STATUS` (R22,
spec/60_exceptions.md R200); CONTRACT_ERROR in `STATUS` only with `FAULT` set (R204). -/
structure State.Inv (s : State) : Prop where
  legal : s.params.Legal
  obuf_length : s.obuf.length = s.params.maxFrame
  olen_le : s.olen.toNat ≤ s.params.maxFrame
  obuf_zero : ∀ b ∈ s.obuf.drop s.olen.toNat, b = 0x00#8
  payload_length : s.rxfPayload.length = s.params.maxPayload
  plen_le : s.rxfPlen.toNat ≤ s.params.maxPayload
  payload_zero : ∀ b ∈ s.rxfPayload.drop s.rxfPlen.toNat, b = 0x00#8
  status_le : s.status.toNat ≤ 4
  contract_fault : s.status = 4#3 → s.fault = true

/-- The block was used correctly up to this state: "A model should treat a state with `FAULT = 1` as faulted"
(spec/60_exceptions.md R202). -/
def State.CorrectUse (s : State) : Prop := s.fault = false

/-- The code of the first of DECODE's conditions that holds, in the order of spec/60_exceptions.md R205; 0 where none does. -/
def decodeErrorCode (p : Params) (inp : List Byte) (explen : Nat) : BitVec 3 :=
  if explen < p.h + 1 ∨ explen > p.maxFrame ∨ inp.length > p.maxFrame then 4#3
  else if inp.length ≠ explen then 2#3
  else if inp.getD 0 0x00#8 ≠ 0x3B#8 then 3#3
  else if ((inp.drop 1).map BitVec.toNat).sum % 256 ≠ 0 then 1#3
  else if p.lengthByte = true ∧ (inp.getD 1 0x00#8).toNat ≠ inp.length - 3 then 2#3
  else 0#3

/-- The code of an operation whose one error condition is CONTRACT_ERROR's (R206). -/
def contractCode (broken : Prop) [Decidable broken] : BitVec 3 := if broken then 4#3 else 0#3

/-- The condition of a field extractor of `w` bytes (R206, spec/42_response_parser.md R144). -/
def extractorCode (s : State) (off : Byte) (w : Nat) : BitVec 3 :=
  contractCode (s.rxfValid = false ∨ off.toNat + w > s.rxfPlen.toNat)

/-- A wire command's error is that of its expansion (spec/30_encoding.md R79). -/
def wireErrorCode (s : State) (c : WireCmd) : WireForm → BitVec 3
  | .request payload => contractCode (payload.length > s.params.maxPayload)
  | .response received => decodeErrorCode s.params received (rspExplen s.params c)

/-- The code of the error that applies to an instruction in a state, 0 where none does: the table of spec/60_exceptions.md R206,
row by row. -/
def errorCode (s : State) : Instr → BitVec 3
  | .nop => 0#3
  | .ckClear => 0#3
  | .ckAdd inp => contractCode (inp.length > s.params.maxFrame)
  | .ckRead => 0#3
  | .cksum inp => contractCode (inp.length > s.params.maxFrame)
  | .ckVerify inp => contractCode (inp.length > s.params.maxFrame)
  | .encode _ _ _ inp => contractCode (inp.length > s.params.maxPayload)
  | .decode inp explen => decodeErrorCode s.params inp explen.toNat
  | .pack24 _ => 0#3
  | .pack16 val => contractCode (val.toNat > 0xFFFF)
  | .flagEnc _ => 0#3
  | .unpack24u off => extractorCode s off 3
  | .unpack24s off => extractorCode s off 3
  | .decS12 off => extractorCode s off 2
  | .flagDec off => extractorCode s off 1
  | .sreset => 0#3
  | .getPosition f => wireErrorCode s .getPosition f
  | .moveAbs f => wireErrorCode s .moveAbs f
  | .sync f => wireErrorCode s .sync f
  | .gotoDone f => wireErrorCode s .gotoDone f
  | .abort f => wireErrorCode s .abort f
  | .setMaxPos f => wireErrorCode s .setMaxPos f
  | .setSlewLimit f => wireErrorCode s .setSlewLimit f
  | .fanGet f => wireErrorCode s .fanGet f
  | .fanSet f => wireErrorCode s .fanSet f
  | .calGet f => wireErrorCode s .calGet f
  | .calSet f => wireErrorCode s .calSet f
  | .tempGet f => wireErrorCode s .tempGet f
  | .getVersion f => wireErrorCode s .getVersion f

/-- `k` steps of the machine, stopping at the first refusal (spec/70_reset_and_hazards.md R240). -/
def run (k : Nat) (s : State) : Host.Outcome State Fault Refusal := Sys2Proof.core.run k s

/-- The bytes an operation adds to `ACC`: those of a CK_ADD that raises no error (spec/10_state.md R21, spec/40_checksum.md
R104). -/
def addedBytes (p : Params) (i : Instr) : List Byte :=
  match i with
  | .ckAdd inp => if inp.length ≤ p.maxFrame then inp else []
  | _ => []

/-- A run of `k` steps that ends, and ends with `FAULT = 0` (spec/70_reset_and_hazards.md R240). -/
def SafeRun (k : Nat) (s : State) : Prop := ∃ t, run k s = .next t ∧ t.CorrectUse

end Sys2Proof.Machine
end

