-- ==== Sys2Proof/Certificates/Slice0/Obligations.lean ====
section
/-! DEFINITION. The statements for the provers, from the spec's numbered rules. `Σ` of R9 is written
`(bs.map BitVec.toNat).sum`; the next states are written out as record updates, so each equality is also a frame. The
encoding of an operation (`OP[3:0]`, R61) is stated through `decodeTableWord`, in the numbering of spec/opcode_table.json, with
every other field of the record zero. -/

open Sys2Proof Sys2Proof.Machine

/-! ## Encoding and the host's sequence -/

/-- 30_encoding.md R61, in the record layout of log entry 1 (DESIGN CHOICE): each of the 16 values of `OP` selects its
operation, with the fields R60 marks for it. -/
def Obligations.OpValuesSelectTheirOperations : Prop :=
  ∀ (src dst cmd explen v0 v1 v2 off : Byte) (inp : List Byte), inp.length ≤ 255 →
    let word := fun op : Byte => [op, src, dst, cmd, BitVec.ofNat 8 inp.length, explen, v0, v1, v2, off] ++ inp
    decode (word 0x00#8) = .ok .nop ∧
    decode (word 0x01#8) = .ok .ckClear ∧
    decode (word 0x02#8) = .ok (.ckAdd inp) ∧
    decode (word 0x03#8) = .ok .ckRead ∧
    decode (word 0x04#8) = .ok (.cksum inp) ∧
    decode (word 0x05#8) = .ok (.ckVerify inp) ∧
    decode (word 0x06#8) = .ok (.encode src dst cmd inp) ∧
    decode (word 0x07#8) = .ok (.decode inp explen) ∧
    decode (word 0x08#8) = .ok (.pack24 (v2 ++ v1 ++ v0)) ∧
    decode (word 0x09#8) = .ok (.pack16 (v2 ++ v1 ++ v0)) ∧
    decode (word 0x0A#8) = .ok (.flagEnc (v2 ++ v1 ++ v0)) ∧
    decode (word 0x0B#8) = .ok (.unpack24u off) ∧
    decode (word 0x0C#8) = .ok (.unpack24s off) ∧
    decode (word 0x0D#8) = .ok (.decS12 off) ∧
    decode (word 0x0E#8) = .ok (.flagDec off) ∧
    decode (word 0x0F#8) = .ok .sreset

/-- Words written out by hand, one of each family: OP values of R61, fields of R60 in the layout of log entry 1, tags of log
entry 2 (DESIGN CHOICE). The records shorter than ten bytes rest on log entry 10 (DEDUCED: a missing byte reads as zero), and
the refusal of `[0x11]`, MOVE_ABS's REQ without a payload, on log entry 9 (DEDUCED: it has the empty payload). -/
def Obligations.SpelledWordsDecode : Prop :=
  decode [0x02#8, 0#8, 0#8, 0#8, 2#8, 0#8, 0#8, 0#8, 0#8, 0#8, 0x80#8, 0x7F#8] = .ok (.ckAdd [0x80#8, 0x7F#8]) ∧
  decode [0x06#8, 0x20#8, 0x12#8, 0x01#8] = .ok (.encode 0x20#8 0x12#8 0x01#8 []) ∧
  decode [0x08#8, 0#8, 0#8, 0#8, 0#8, 0#8, 0x56#8, 0x34#8, 0x12#8] = .ok (.pack24 0x123456#24) ∧
  decode [0x07#8, 0#8, 0#8, 0#8, 1#8, 6#8, 0#8, 0#8, 0#8, 0#8, 0x3B#8] = .ok (.decode [0x3B#8] 6#8) ∧
  decode [0x0D#8, 0#8, 0#8, 0#8, 0#8, 0#8, 0#8, 0#8, 0#8, 2#8] = .ok (.decS12 2#8) ∧
  decode [0x0F#8] = .ok .sreset ∧
  decode [0x10#8] = .ok (.getPosition (.request [])) ∧
  decode [0x28#8, 0#8, 0#8, 0#8, 1#8, 0#8, 0#8, 0#8, 0#8, 0#8, 0x3B#8] = .ok (.fanSet (.response [0x3B#8])) ∧
  decode [0x11#8] = .error .payloadLength ∧
  decode [0x1D#8] = .error .noSuchCommand ∧
  decode [0x30#8] = .error .reservedFormat

/-- 30_encoding.md R60 ("It ignores the others, whatever their values") and 20_memory.md R41 ("Only `IN[0..INLEN-1]` is
read"), in the layout of log entry 1 (DESIGN CHOICE): two operation requests that agree in `OP` and in the fields its
operation reads are the same operation. -/
def Obligations.UnreadRequestFieldsHaveNoEffect : Prop :=
  ∀ r r' : List Byte, recordFormat r = 0 → recordFormat r' = 0 → recordOp r = recordOp r' →
    let sameInput := recordInlen r = recordInlen r' ∧
      ∀ k, k < (recordInlen r).toNat → recordByte r (10 + k) = recordByte r' (10 + k)
    (recordOp r ∈ [0x0, 0x1, 0x3, 0xF] → decode r = decode r') ∧
    (recordOp r ∈ [0x2, 0x4, 0x5] → sameInput → decode r = decode r') ∧
    (recordOp r = 0x6 → sameInput → recordSrc r = recordSrc r' → recordDst r = recordDst r' →
      recordCmd r = recordCmd r' → decode r = decode r') ∧
    (recordOp r = 0x7 → sameInput → recordExplen r = recordExplen r' → decode r = decode r') ∧
    (recordOp r ∈ [0x8, 0x9, 0xA] → recordVal r = recordVal r' → decode r = decode r') ∧
    (recordOp r ∈ [0xB, 0xC, 0xD, 0xE] → recordOff r = recordOff r' → decode r = decode r')

/-- Decode and encode agree, for every well-formed instruction with every operand the record admits. -/
def Obligations.DecodeOfEncodeIsTheInstruction : Prop :=
  ∀ i : Instr, i.wellFormed = true → decode (encode i) = .ok i

/-- The decoder answers well-formed instructions only. That it answers no REQ whose payload length is outside the command's
class, an absent payload included, is log entry 9 (DEDUCED); the tags are log entry 2 (DESIGN CHOICE), and the zero for a
missing byte log entry 10 (DEDUCED). -/
def Obligations.DecodedInstructionsAreWellFormed : Prop :=
  ∀ (r : List Byte) (i : Instr), decode r = .ok i → i.wellFormed = true

/-- 30_encoding.md R75 ("No `OP` value traps"), in the layout of log entry 1 (DESIGN CHOICE): every record of the request
port's format is an operation, and it completes in every state. -/
def Obligations.EveryOpValueIsAnOperationThatCompletes : Prop :=
  ∀ r : List Byte, recordFormat r = 0 → ∃ i, decode r = .ok i ∧ ∀ s : State, ∃ t, exec i s = .next t

/-- A step runs the instruction the next request encodes, in the state without that request; with nothing on the port nothing
changes, and a record that is no encoding is refused (log entry 4, DESIGN CHOICE). -/
def Obligations.StepRunsTheDecodedInstruction : Prop :=
  (∀ (s : State) (r : List Byte) (rest : List HostEvent) (i : Instr),
    s.port = .request r :: rest → decode r = .ok i → step s = exec i { s with port := rest }) ∧
  (∀ (s : State) (r : List Byte) (rest : List HostEvent) (e : DecodeError),
    s.port = .request r :: rest → decode r = .error e → step s = .refused (.badRecord e)) ∧
  (∀ s : State, s.port = [] → step s = .next s)

/-! ## Reset, parameters, invariant -/

/-- 10_state.md R34, 40_checksum.md R110, 70_reset_and_hazards.md R231. -/
def Obligations.ResetAndSresetGiveTheResetValues : Prop :=
  (State.reset.acc = 0x00#8 ∧ State.reset.status = 0#3 ∧ State.reset.fault = false ∧
    State.reset.obuf = List.replicate State.reset.params.maxFrame 0x00#8 ∧ State.reset.olen = 0#8 ∧
    State.reset.result = 0x00000000#32 ∧ State.reset.rxfValid = false ∧ State.reset.rxfSrc = 0x00#8 ∧
    State.reset.rxfDst = 0x00#8 ∧ State.reset.rxfCmd = 0x00#8 ∧ State.reset.rxfPlen = 0#8 ∧
    State.reset.rxfPayload = List.replicate State.reset.params.maxPayload 0x00#8) ∧
  decodeTableWord 4 0xF = some .sreset ∧
  ∀ s : State, exec .sreset s = .next { s with
    acc := 0x00#8, status := 0#3, obuf := List.replicate s.params.maxFrame 0x00#8, olen := 0#8, result := 0#32,
    rxfValid := false, rxfSrc := 0x00#8, rxfDst := 0x00#8, rxfCmd := 0x00#8, rxfPlen := 0#8,
    rxfPayload := List.replicate s.params.maxPayload 0x00#8 }

/-- 70_reset_and_hazards.md R230, the event standing on the port (log entry 5, DESIGN CHOICE): it puts every register at its
reset value, `FAULT = 0` included, and "is the only event that clears `FAULT`". -/
def Obligations.HardwareResetAloneClearsFault : Prop :=
  (∀ (s : State) (rest : List HostEvent), s.port = .hardwareReset :: rest → step s = .next { s with
    acc := 0x00#8, status := 0#3, fault := false, obuf := List.replicate s.params.maxFrame 0x00#8, olen := 0#8,
    result := 0#32, rxfValid := false, rxfSrc := 0x00#8, rxfDst := 0x00#8, rxfCmd := 0x00#8, rxfPlen := 0#8,
    rxfPayload := List.replicate s.params.maxPayload 0x00#8, port := rest }) ∧
  (∀ s t : State, step s = .next t → s.fault = true → t.fault = false → ∃ rest, s.port = .hardwareReset :: rest)

/-- 00_scope.md R6 and R7: the values R6 gives, the defaults in the state after reset, the ranges and what R7 says they keep in 8
bits, and no step changes a parameter. The twelve OPEN codes and the three OPEN lengths have no value here. -/
def Obligations.ParametersAreFixed : Prop :=
  (∀ s t : State, step s = .next t → t.params = s.params) ∧
  (startByte = 0x3B#8 ∧ addrPc = 0x20#8 ∧ addrHc = 0x0D#8 ∧ addrMotor = 0x12#8 ∧ addrFan = 0x13#8 ∧
    addrTemp = addrMotor ∧ cmdGetPosition = 0x01#8 ∧ flagTrueByte = 0x01#8 ∧ flagFalseByte = 0x00#8) ∧
  (State.reset.params.lengthByte = true ∧ State.reset.params.maxPayload = 16 ∧
    State.reset.params.ackPayloadLen = 0 ∧ State.reset.params.s12NibbleFirst = false ∧
    State.reset.params.posSignedGetPosition = false ∧ State.reset.params.posSignedMoveAbs = false ∧
    State.reset.params.posSignedSync = false) ∧
  (∀ p : Params, p.h = (if p.lengthByte then 5 else 4) ∧ p.maxFrame = p.h + p.maxPayload + 1 ∧
    p.lenSetMaxPos.toNat ∈ [1, 2] ∧ p.lenSetSlewLimit.toNat ∈ [1, 2] ∧
    (p.Legal → 4 ≤ p.maxPayload ∧ p.maxPayload ≤ 249 ∧ p.maxFrame ≤ 255 ∧ p.maxPayload + 3 ≤ 252 ∧
      1 ≤ p.versionPayloadLen ∧ p.versionPayloadLen ≤ p.maxPayload)) ∧
  (1 ≤ State.reset.params.versionPayloadLen ∧ State.reset.params.versionPayloadLen ≤ 16)

/-- The invariant holds after reset. -/
def Obligations.ResetMeetsTheInvariant : Prop := State.reset.Inv

/-- Every step keeps the invariant: the buffers keep their sizes and are zero past their lengths (10_state.md R24, R26),
`STATUS` keeps a code of R200, CONTRACT_ERROR never stands without `FAULT` (R204). -/
def Obligations.StepKeepsTheInvariant : Prop :=
  ∀ s t : State, s.Inv → step s = .next t → t.Inv

/-! ## Control and checksum operations -/

/-- 40_checksum.md R109. -/
def Obligations.NopWritesNothing : Prop := decodeTableWord 4 0x0 = some .nop ∧ ∀ s : State, exec .nop s = .next s

/-- 40_checksum.md R103. -/
def Obligations.CkClearClearsTheAccumulator : Prop :=
  decodeTableWord 4 0x1 = some .ckClear ∧
  ∀ s : State, exec .ckClear s = .next { s with acc := 0x00#8, status := 0#3 }

/-- 40_checksum.md R104. -/
def Obligations.CkAddAddsTheBytes : Prop :=
  decodeTableWord 4 0x2 = some (.ckAdd []) ∧
  ∀ (s : State) (inp : List Byte),
    (inp.length ≤ s.params.maxFrame → exec (.ckAdd inp) s = .next { s with
      acc := BitVec.ofNat 8 ((s.acc.toNat + (inp.map BitVec.toNat).sum) % 256), status := 0#3 }) ∧
    (inp.length > s.params.maxFrame → exec (.ckAdd inp) s = .next { s with status := 4#3, fault := true })

/-- 40_checksum.md R105. -/
def Obligations.CkReadReadsTheChecksum : Prop :=
  decodeTableWord 4 0x3 = some .ckRead ∧
  ∀ s : State, exec .ckRead s = .next { s with
    result := BitVec.ofNat 32 ((256 - s.acc.toNat) % 256), status := 0#3 }

/-- 40_checksum.md R106. -/
def Obligations.CksumComputesTheChecksum : Prop :=
  decodeTableWord 4 0x4 = some (.cksum []) ∧
  ∀ (s : State) (inp : List Byte),
    (inp.length ≤ s.params.maxFrame → exec (.cksum inp) s = .next { s with
      result := BitVec.ofNat 32 ((256 - (inp.map BitVec.toNat).sum % 256) % 256), status := 0#3 }) ∧
    (inp.length > s.params.maxFrame → exec (.cksum inp) s = .next { s with status := 4#3, fault := true })

/-- 40_checksum.md R107. -/
def Obligations.CkVerifyChecksTheSum : Prop :=
  decodeTableWord 4 0x5 = some (.ckVerify []) ∧
  ∀ (s : State) (inp : List Byte),
    (inp.length ≤ s.params.maxFrame → exec (.ckVerify inp) s = .next { s with
      result := if (inp.map BitVec.toNat).sum % 256 = 0 then 1#32 else 0#32, status := 0#3 }) ∧
    (inp.length > s.params.maxFrame → exec (.ckVerify inp) s = .next { s with status := 4#3, fault := true })

/-- 40_checksum.md R100: the formula, its negation form, its corner cases, and the discarded carries (summing byte by byte
mod 256). -/
def Obligations.ChecksumIsTheNegatedByteSum : Prop :=
  ∀ bs : List Byte,
    checksum bs = BitVec.ofNat 8 ((256 - (bs.map BitVec.toNat).sum % 256) % 256) ∧
    checksum bs = -BitVec.ofNat 8 (bs.map BitVec.toNat).sum ∧
    checksum [] = 0x00#8 ∧
    (checksum bs = 0x00#8 ↔ (bs.map BitVec.toNat).sum % 256 = 0) ∧
    checksum bs = -(bs.foldl (fun a b => a + b) 0#8)

/-- 40_checksum.md R101 and 42_response_parser.md R141, which the spec marks as its own derivations: the sum with its checksum
is `0` mod 256, and step 4 of R140 is the test of the trailing byte against the checksum of those before it. -/
def Obligations.ZeroSumIsTheTrailingChecksum : Prop :=
  (∀ bs : List Byte, ((bs.map BitVec.toNat).sum + (checksum bs).toNat) % 256 = 0) ∧
  (∀ (bs : List Byte) (b : Byte),
    b = checksum bs ↔ ((bs ++ [b]).map BitVec.toNat).sum % 256 = 0)

/-- 40_checksum.md R102, which the spec marks as its own derivation: flipping one bit of a byte of a checksum-consistent
sequence leaves it inconsistent, and CK_VERIFY says so. -/
def Obligations.ChecksumDetectsEverySingleBitError : Prop :=
  ∀ (s : State) (bs : List Byte) (k b : Nat), k < bs.length → b < 8 → bs.length ≤ s.params.maxFrame →
    (bs.map BitVec.toNat).sum % 256 = 0 →
    exec (.ckVerify (bs.set k (bs.getD k 0#8 ^^^ BitVec.twoPow 8 b))) s =
      .next { s with result := 0#32, status := 0#3 }

/-- 40_checksum.md R108, which the spec marks as its own derivation, as a run of the machine: CK_CLEAR, one CK_ADD for each
piece and CK_READ leave the checksum of the concatenation in `RESULT`. -/
def Obligations.StreamingGivesTheChecksumOfTheConcatenation : Prop :=
  ∀ (s : State) (pieces : List (List Byte)), s.params.Legal → (∀ p ∈ pieces, p.length ≤ s.params.maxFrame) →
    let program := [Instr.ckClear] ++ pieces.map Instr.ckAdd ++ [Instr.ckRead]
    run program.length (s.issueAll program) = .next { s with
      acc := BitVec.ofNat 8 (pieces.flatten.map BitVec.toNat).sum
      result := (checksum pieces.flatten).setWidth 32
      status := 0#3 }

/-- 40_checksum.md R108 with other operations between ("Suppose no other operation that writes `ACC` comes between them"): a
run of well-formed instructions, none of them CK_CLEAR or SRESET; what its CK_ADDs add is the sequence. -/
def Obligations.StreamingSurvivesOtherOperations : Prop :=
  ∀ (s t : State) (between : List Instr),
    (∀ i ∈ between, i.wellFormed = true ∧ i ≠ .ckClear ∧ i ≠ .sreset) →
    let program := [Instr.ckClear] ++ between ++ [Instr.ckRead]
    let added := (between.map (addedBytes s.params)).flatten
    run program.length (s.issueAll program) = .next t →
    t.result = (checksum added).setWidth 32 ∧ t.port = s.port

/-- 10_state.md R21: at the end of a run that begins with CK_CLEAR, SRESET or a hardware reset and has none of them after that,
`ACC` is the sum mod 256 of the bytes its CK_ADDs added; and ENCODE, DECODE, CKSUM and CK_VERIFY compute "without reading or
writing `ACC`": with another value in `ACC` they do the same and leave that value. The sequence and the reset event stand on the port of log entries 4 and 5
(DESIGN CHOICE). -/
def Obligations.AccumulatorIsTheSumSinceTheLastClear : Prop :=
  (∀ (s t : State) (start : HostEvent) (is : List Instr) (rest : List HostEvent),
    start ∈ [.request (encode .ckClear), .request (encode .sreset), .hardwareReset] →
    (∀ i ∈ is, i.wellFormed = true ∧ i ≠ .ckClear ∧ i ≠ .sreset) →
    run (is.length + 1) { s with port := [start] ++ is.map (fun i => .request (encode i)) ++ rest } = .next t →
    t.acc = BitVec.ofNat 8 (((is.map (addedBytes s.params)).flatten.map BitVec.toNat).sum % 256) ∧ t.port = rest) ∧
  (∀ (i : Instr) (s t : State) (a : Byte),
    (∃ src dst cmd inp, i = .encode src dst cmd inp) ∨ (∃ inp explen, i = .decode inp explen) ∨
      (∃ inp, i = .cksum inp) ∨ (∃ inp, i = .ckVerify inp) →
    exec i s = .next t → t.acc = s.acc ∧ exec i { s with acc := a } = .next { t with acc := a })

/-- 10_state.md R21 as an invariant of a step: where `ACC` is the sum mod 256 of the bytes `L`, a step that runs CK_CLEAR or
SRESET, or takes a hardware reset, leaves the sum of none, a step that runs any other instruction the sum of `L` and the bytes it
adds, and an idle step the sum of `L`. The sequence stands on the port of log entries 4 and 5 (DESIGN CHOICE). -/
def Obligations.StepKeepsTheRunningSum : Prop :=
  ∀ (s t : State) (L : List Byte),
    let sum := fun bs : List Byte => BitVec.ofNat 8 ((bs.map BitVec.toNat).sum % 256)
    s.acc = sum L → step s = .next t →
    (s.port = [] → t.acc = sum L) ∧
    (∀ rest, s.port = .hardwareReset :: rest → t.acc = sum []) ∧
    (∀ (r : List Byte) (rest : List HostEvent) (i : Instr), s.port = .request r :: rest → decode r = .ok i →
      t.acc = sum (if i = .ckClear ∨ i = .sreset then [] else L ++ addedBytes s.params i))

/-! ## Command frame builder -/

/-- 41_frame_builder.md R120 and R121, the frame written out from 30_encoding.md R62. -/
def Obligations.EncodeBuildsTheFrame : Prop :=
  decodeTableWord 4 0x6 = some (.encode 0#8 0#8 0#8 []) ∧
  ∀ (s : State) (src dst cmd : Byte) (p : List Byte),
    let body := (if s.params.lengthByte then [BitVec.ofNat 8 (p.length + 3)] else []) ++ [src, dst, cmd] ++ p
    let f := [0x3B#8] ++ body ++ [BitVec.ofNat 8 ((256 - (body.map BitVec.toNat).sum % 256) % 256)]
    f.length = s.params.h + p.length + 1 ∧
    (p.length ≤ s.params.maxPayload → exec (.encode src dst cmd p) s = .next { s with
      olen := BitVec.ofNat 8 (s.params.h + p.length + 1)
      obuf := f ++ List.replicate (s.params.maxFrame - (s.params.h + p.length + 1)) 0x00#8
      status := 0#3 }) ∧
    (p.length > s.params.maxPayload → exec (.encode src dst cmd p) s = .next { s with status := 4#3, fault := true })

/-- 30_encoding.md R65 of the frame ENCODE leaves in `OBUF[0..OLEN-1]`, which has the length R64 gives. -/
def Obligations.BuiltFramesSumToZero : Prop :=
  ∀ (s : State) (src dst cmd : Byte) (p : List Byte), s.params.Legal → p.length ≤ s.params.maxPayload →
    ∃ t, exec (.encode src dst cmd p) s = .next t ∧
      t.output.length = s.params.h + p.length + 1 ∧ t.output.head? = some 0x3B#8 ∧
      t.output.getLast? = some (checksum (t.output.drop 1).dropLast) ∧
      ((t.output.drop 1).map BitVec.toNat).sum % 256 = 0

/-- 41_frame_builder.md R122. -/
def Obligations.Pack24PacksLittleEndian : Prop :=
  decodeTableWord 4 0x8 = some (.pack24 0#24) ∧
  ∀ (s : State) (val : Word24), exec (.pack24 val) s = .next { s with
    obuf := [BitVec.ofNat 8 val.toNat, BitVec.ofNat 8 (val.toNat / 256), BitVec.ofNat 8 (val.toNat / 65536)] ++
      List.replicate (s.params.maxFrame - 3) 0x00#8
    olen := 3#8
    status := 0#3 }

/-- 41_frame_builder.md R123. -/
def Obligations.Pack16PacksLittleEndian : Prop :=
  decodeTableWord 4 0x9 = some (.pack16 0#24) ∧
  ∀ (s : State) (val : Word24),
    (val.toNat ≤ 0xFFFF → exec (.pack16 val) s = .next { s with
      obuf := [BitVec.ofNat 8 val.toNat, BitVec.ofNat 8 (val.toNat / 256)] ++
        List.replicate (s.params.maxFrame - 2) 0x00#8
      olen := 2#8
      status := 0#3 }) ∧
    (val.toNat > 0xFFFF → exec (.pack16 val) s = .next { s with status := 4#3, fault := true })

/-- 41_frame_builder.md R124. -/
def Obligations.FlagEncEncodesABoolean : Prop :=
  decodeTableWord 4 0xA = some (.flagEnc 0#24) ∧
  ∀ (s : State) (val : Word24), exec (.flagEnc val) s = .next { s with
    obuf := [if val.toNat = 0 then 0x00#8 else 0x01#8] ++ List.replicate (s.params.maxFrame - 1) 0x00#8
    olen := 1#8
    status := 0#3 }

/-! ## Response frame validator and parser -/

/-- 42_response_parser.md R140: the six steps, in order; each failing step is a clause, and its conditions shut out the
failing of every earlier step. -/
def Obligations.DecodeValidatesAndParses : Prop :=
  decodeTableWord 4 0x7 = some (.decode [] 0#8) ∧
  ∀ (s : State) (inp : List Byte) (explen : Byte),
    let h := s.params.h
    let m := s.params.maxFrame
    let e := explen.toNat
    let n := inp.length - h - 1
    let broken := e < h + 1 ∨ e > m ∨ inp.length > m
    let marked := inp.getD 0 0#8 = 0x3B#8
    let zero := ((inp.drop 1).map BitVec.toNat).sum % 256 = 0
    let counted := s.params.lengthByte = true → (inp.getD 1 0#8).toNat = inp.length - 3
    (broken → exec (.decode inp explen) s = .next { s with status := 4#3, fault := true }) ∧
    (¬broken → inp.length ≠ e → exec (.decode inp explen) s = .next { s with status := 2#3, rxfValid := false }) ∧
    (¬broken → inp.length = e → ¬marked →
      exec (.decode inp explen) s = .next { s with status := 3#3, rxfValid := false }) ∧
    (¬broken → inp.length = e → marked → ¬zero →
      exec (.decode inp explen) s = .next { s with status := 1#3, rxfValid := false }) ∧
    (¬broken → inp.length = e → marked → zero → ¬counted →
      exec (.decode inp explen) s = .next { s with status := 2#3, rxfValid := false }) ∧
    (¬broken → inp.length = e → marked → zero → counted → exec (.decode inp explen) s = .next { s with
      rxfSrc := inp.getD (h - 3) 0#8
      rxfDst := inp.getD (h - 2) 0#8
      rxfCmd := inp.getD (h - 1) 0#8
      rxfPlen := BitVec.ofNat 8 n
      rxfPayload := (inp.drop h).take n ++ List.replicate (s.params.maxPayload - n) 0x00#8
      rxfValid := true
      status := 0#3 })

/-- 60_exceptions.md R201: DECODE is total over the bytes it is given, and a protocol error "does not set `FAULT`"; it clears
`RXF_VALID` and leaves the other fields. -/
def Obligations.ProtocolErrorsAreNormalResults : Prop :=
  ∀ (s : State) (inp : List Byte) (explen : Byte), ∃ t, exec (.decode inp explen) s = .next t ∧
    (t.status ∈ [1#3, 2#3, 3#3] → t = { s with status := t.status, rxfValid := false })

/-- 42_response_parser.md R142, which the spec marks as its own derivation: DECODE of what ENCODE left in `OBUF` gives back
the fields. -/
def Obligations.DecodeReturnsWhatEncodeBuilt : Prop :=
  ∀ (s : State) (src dst cmd : Byte) (p : List Byte), s.params.Legal → p.length ≤ s.params.maxPayload →
    ∃ t, exec (.encode src dst cmd p) s = .next t ∧
      exec (.decode t.output t.olen) t = .next { t with
        rxfSrc := src, rxfDst := dst, rxfCmd := cmd, rxfPlen := BitVec.ofNat 8 p.length
        rxfPayload := p ++ List.replicate (s.params.maxPayload - p.length) 0x00#8
        rxfValid := true, status := 0#3 }

/-- 42_response_parser.md R143, which the spec marks as its own derivation: flipping one bit of an accepted frame gives
MALFORMED_START_ERROR in the start byte and CHECKSUM_ERROR in every other, the length byte among them. -/
def Obligations.SingleBitFlipsAreDetected : Prop :=
  ∀ (s t : State) (f : List Byte) (k b : Nat), k < f.length → b < 8 → f.length ≤ 255 →
    exec (.decode f (BitVec.ofNat 8 f.length)) s = .next t → t.status = 0#3 →
    exec (.decode (f.set k (f.getD k 0#8 ^^^ BitVec.twoPow 8 b)) (BitVec.ofNat 8 f.length)) s = .next { s with
      status := if k = 0 then 3#3 else 1#3, rxfValid := false }

/-- 42_response_parser.md R144: the check of every field extractor, and no byte of `RXF_PAYLOAD` at or past `RXF_PLEN` has an
effect on it. -/
def Obligations.ExtractorsCheckTheirBounds : Prop :=
  (∀ (s : State) (off : Byte),
    (s.rxfValid = false ∨ off.toNat + 3 > s.rxfPlen.toNat →
      exec (.unpack24u off) s = .next { s with status := 4#3, fault := true } ∧
      exec (.unpack24s off) s = .next { s with status := 4#3, fault := true }) ∧
    (s.rxfValid = false ∨ off.toNat + 2 > s.rxfPlen.toNat →
      exec (.decS12 off) s = .next { s with status := 4#3, fault := true }) ∧
    (s.rxfValid = false ∨ off.toNat + 1 > s.rxfPlen.toNat →
      exec (.flagDec off) s = .next { s with status := 4#3, fault := true })) ∧
  (∀ (s t : State) (i : Instr) (off : Byte) (other : List Byte),
    i ∈ [.unpack24u off, .unpack24s off, .decS12 off, .flagDec off] →
    (∀ k, k < s.rxfPlen.toNat → other.getD k 0#8 = s.rxfPayload.getD k 0#8) →
    exec i s = .next t → exec i { s with rxfPayload := other } = .next { t with rxfPayload := other })

/-- 42_response_parser.md R145. -/
def Obligations.Unpack24uReadsAnUnsignedField : Prop :=
  decodeTableWord 4 0xB = some (.unpack24u 0#8) ∧
  ∀ (s : State) (off : Byte),
    let b := fun k => (s.rxfPayload.getD (off.toNat + k) 0#8).toNat
    (s.rxfValid = true → off.toNat + 3 ≤ s.rxfPlen.toNat → exec (.unpack24u off) s = .next { s with
      result := BitVec.ofNat 32 (b 0 + 256 * b 1 + 65536 * b 2), status := 0#3 }) ∧
    (s.rxfValid = false ∨ off.toNat + 3 > s.rxfPlen.toNat →
      exec (.unpack24u off) s = .next { s with status := 4#3, fault := true })

/-- 42_response_parser.md R146: the two's-complement value of the 24 bits (00_scope.md R10). -/
def Obligations.Unpack24sReadsASignedField : Prop :=
  decodeTableWord 4 0xC = some (.unpack24s 0#8) ∧
  ∀ (s : State) (off : Byte),
    let b := fun k => (s.rxfPayload.getD (off.toNat + k) 0#8).toNat
    let u := b 0 + 256 * b 1 + 65536 * b 2
    (s.rxfValid = true → off.toNat + 3 ≤ s.rxfPlen.toNat → exec (.unpack24s off) s = .next { s with
      result := BitVec.ofInt 32 (if u < 2 ^ 23 then (u : Int) else (u : Int) - 2 ^ 24), status := 0#3 }) ∧
    (s.rxfValid = false ∨ off.toNat + 3 > s.rxfPlen.toNat →
      exec (.unpack24s off) s = .next { s with status := 4#3, fault := true })

/-- 42_response_parser.md R147, in both layouts of `S12_NIBBLE_FIRST`; the upper nibble of the nibble byte has no effect. -/
def Obligations.DecS12ReadsASigned12BitField : Prop :=
  decodeTableWord 4 0xD = some (.decS12 0#8) ∧
  ∀ (s : State) (off : Byte),
    let b := fun k => (s.rxfPayload.getD (off.toNat + k) 0#8).toNat
    let nb := if s.params.s12NibbleFirst then b 0 else b 1
    let lo := if s.params.s12NibbleFirst then b 1 else b 0
    let raw := nb % 16 * 256 + lo
    (s.rxfValid = true → off.toNat + 2 ≤ s.rxfPlen.toNat → exec (.decS12 off) s = .next { s with
      result := BitVec.ofInt 32 (if raw < 2048 then (raw : Int) else (raw : Int) - 4096), status := 0#3 }) ∧
    (s.rxfValid = false ∨ off.toNat + 2 > s.rxfPlen.toNat →
      exec (.decS12 off) s = .next { s with status := 4#3, fault := true })

/-- 42_response_parser.md R149. -/
def Obligations.FlagDecReadsAFlag : Prop :=
  decodeTableWord 4 0xE = some (.flagDec 0#8) ∧
  ∀ (s : State) (off : Byte),
    (s.rxfValid = true → off.toNat + 1 ≤ s.rxfPlen.toNat → exec (.flagDec off) s = .next { s with
      result := if s.rxfPayload.getD off.toNat 0#8 = 0x00#8 then 0#32 else 1#32, status := 0#3 }) ∧
    (s.rxfValid = false ∨ off.toNat + 1 > s.rxfPlen.toNat →
      exec (.flagDec off) s = .next { s with status := 4#3, fault := true })

/-! ## Errors, over all instructions -/

/-- 10_state.md R22: every operation but NOP writes `STATUS` (what it does depends in nothing on the `STATUS` before it), with 0
where no error condition of 60_exceptions.md R206 holds and else with the code of the error that applies (R205), a code of
R200; NOP leaves it. -/
def Obligations.EveryOperationButNopWritesStatus : Prop :=
  (∀ (i : Instr) (s t : State) (x : BitVec 3), i ≠ .nop → exec i s = .next t →
    exec i { s with status := x } = .next t ∧ t.status = errorCode s i ∧ t.status ∈ [0#3, 1#3, 2#3, 3#3, 4#3]) ∧
  (∀ s t : State, exec .nop s = .next t → t.status = s.status)

/-- 60_exceptions.md R203: all that an operation that raises an error writes. -/
def Obligations.ErrorsWriteOnlyTheirFlags : Prop :=
  ∀ (i : Instr) (s t : State), i ≠ .nop → exec i s = .next t → t.status ≠ 0#3 →
    t = { s with
      status := t.status
      fault := if t.status = 4#3 then true else s.fault
      rxfValid := if t.status = 4#3 then s.rxfValid else false } ∧
    (t.status ≠ 4#3 → (∃ inp explen, i = .decode inp explen) ∨ ∃ c received, i = WireCmd.instr c (.response received))

/-- 60_exceptions.md R206, which the spec marks as its own derivation: the errors each operation can raise, and when. DECODE
reports the first of its conditions that holds, in the order of R205 (42_response_parser.md R140); NOP raises none and leaves
`STATUS` as it was. -/
def Obligations.ErrorsEachOperationCanRaise : Prop :=
  ∀ (s t : State),
    (exec .nop s = .next t → t.status = s.status ∧ t.fault = s.fault) ∧
    (∀ i, (i ∈ [Instr.ckClear, .ckRead, .sreset] ∨ (∃ v, i = .pack24 v) ∨ ∃ v, i = .flagEnc v) →
      exec i s = .next t → t.status = 0#3) ∧
    (∀ inp, ∀ i ∈ [Instr.ckAdd inp, .cksum inp, .ckVerify inp], exec i s = .next t →
      t.status = if inp.length > s.params.maxFrame then 4#3 else 0#3) ∧
    (∀ src dst cmd inp, exec (.encode src dst cmd inp) s = .next t →
      t.status = if inp.length > s.params.maxPayload then 4#3 else 0#3) ∧
    (∀ v, exec (.pack16 v) s = .next t → t.status = if v.toNat > 0xFFFF then 4#3 else 0#3) ∧
    (∀ off, ∀ iw ∈ [(Instr.unpack24u off, 3), (.unpack24s off, 3), (.decS12 off, 2), (.flagDec off, 1)],
      exec iw.1 s = .next t →
      t.status = if s.rxfValid = false ∨ off.toNat + iw.2 > s.rxfPlen.toNat then 4#3 else 0#3) ∧
    (∀ inp explen, exec (.decode inp explen) s = .next t →
      let h := s.params.h
      let m := s.params.maxFrame
      t.status =
        if explen.toNat < h + 1 ∨ explen.toNat > m ∨ inp.length > m then 4#3
        else if inp.length ≠ explen.toNat then 2#3
        else if inp.getD 0 0#8 ≠ 0x3B#8 then 3#3
        else if ((inp.drop 1).map BitVec.toNat).sum % 256 ≠ 0 then 1#3
        else if s.params.lengthByte = true ∧ (inp.getD 1 0#8).toNat ≠ inp.length - 3 then 2#3
        else 0#3)

/-- 10_state.md R23 and 60_exceptions.md R204: CONTRACT_ERROR sets `FAULT`, no operation clears it, a step clears it only by a
hardware reset, an operation does with `FAULT` set all that it does without, and a fault anywhere in a run without a reset is
visible at its end: a run that ends with `FAULT = 0` had it at every step. The reset event stands on the port of log entries 4
and 5 (DESIGN CHOICE). -/
def Obligations.FaultIsSticky : Prop :=
  (∀ (i : Instr) (s t : State), i ≠ .nop → exec i s = .next t → t.status = 4#3 → t.fault = true) ∧
  (∀ (i : Instr) (s t : State), exec i s = .next t → s.fault = true → t.fault = true) ∧
  (∀ (i : Instr) (s t : State), exec i s = .next t →
    exec i { s with fault := true } = .next { t with fault := true }) ∧
  (∀ s t : State, step s = .next t → s.fault = true → t.fault = false → ∃ rest, s.port = .hardwareReset :: rest) ∧
  (∀ (j k : Nat) (s t : State), j ≤ k → HostEvent.hardwareReset ∉ s.port → run j s = .next t → SafeRun k s →
    t.CorrectUse)

/-- 10_state.md R20, the column "written by": what changes a register is one of its writers. A wire command's request is an
ENCODE and its response a DECODE (30_encoding.md R79). -/
def Obligations.RegistersHaveOnlyTheirWriters : Prop :=
  ∀ (i : Instr) (s t : State), exec i s = .next t →
    let decodes := (∃ inp explen, i = .decode inp explen) ∨ ∃ c received, i = WireCmd.instr c (.response received)
    (t.acc ≠ s.acc → i = .ckClear ∨ i = .sreset ∨ ∃ inp, i = .ckAdd inp) ∧
    (t.status ≠ s.status → i ≠ .nop) ∧
    (t.fault ≠ s.fault → t.status = 4#3 ∧ t.fault = true) ∧
    (t.obuf ≠ s.obuf ∨ t.olen ≠ s.olen → i = .sreset ∨ (∃ src dst cmd inp, i = .encode src dst cmd inp) ∨
      (∃ v, i = .pack24 v) ∨ (∃ v, i = .pack16 v) ∨ (∃ v, i = .flagEnc v) ∨
      ∃ c payload, i = WireCmd.instr c (.request payload)) ∧
    (t.result ≠ s.result → i = .sreset ∨ i = .ckRead ∨ (∃ inp, i = .cksum inp) ∨ (∃ inp, i = .ckVerify inp) ∨
      (∃ off, i = .unpack24u off) ∨ (∃ off, i = .unpack24s off) ∨ (∃ off, i = .decS12 off) ∨
      ∃ off, i = .flagDec off) ∧
    (t.rxfValid ≠ s.rxfValid → i = .sreset ∨ decodes) ∧
    (t.rxfSrc ≠ s.rxfSrc ∨ t.rxfDst ≠ s.rxfDst ∨ t.rxfCmd ≠ s.rxfCmd ∨ t.rxfPlen ≠ s.rxfPlen ∨
      t.rxfPayload ≠ s.rxfPayload → i = .sreset ∨ (decodes ∧ t.status = 0#3)) ∧
    t.params = s.params ∧ t.port = s.port

/-! ## Frames -/

/-- The scalar operations write `RESULT`, `STATUS` and, on CONTRACT_ERROR, `FAULT`; every other register is unchanged, and
`RESULT` too on an error (10_state.md R25). -/
def Obligations.ScalarOperationsFrame : Prop :=
  ∀ (i : Instr) (s t : State) (inp : List Byte) (off : Byte),
    i ∈ [.ckRead, .cksum inp, .ckVerify inp, .unpack24u off, .unpack24s off, .decS12 off, .flagDec off] →
    exec i s = .next t →
    t = { s with result := t.result, status := t.status, fault := t.fault } ∧
    (t.status = 0#3 ∧ t.fault = s.fault ∨ t.status = 4#3 ∧ t.fault = true ∧ t.result = s.result)

/-- The builder's operations, and the wire requests, write `OBUF`, `OLEN`, `STATUS` and, on CONTRACT_ERROR, `FAULT`. Every other
register is unchanged, and `OBUF` and `OLEN` too on an error; else every byte of `OBUF` past the output is `0x00` and the
buffer has `MAX_FRAME` bytes (10_state.md R24). -/
def Obligations.OutputOperationsFrame : Prop :=
  ∀ (i : Instr) (s t : State), s.params.Legal →
    (∃ src dst cmd inp, i = .encode src dst cmd inp) ∨ (∃ v, i = .pack24 v) ∨ (∃ v, i = .pack16 v) ∨
      (∃ v, i = .flagEnc v) ∨ (∃ c payload, i = WireCmd.instr c (.request payload)) →
    exec i s = .next t →
    t = { s with obuf := t.obuf, olen := t.olen, status := t.status, fault := t.fault } ∧
    (t.status = 4#3 ∧ t.fault = true ∧ t.obuf = s.obuf ∧ t.olen = s.olen ∨
      t.status = 0#3 ∧ t.fault = s.fault ∧ t.obuf.length = s.params.maxFrame ∧ t.olen.toNat ≤ s.params.maxFrame ∧
        ∀ k, t.olen.toNat ≤ k → t.obuf.getD k 0x00#8 = 0x00#8)

/-- DECODE and the wire responses leave `ACC`, `OBUF`, `OLEN` and `RESULT` as they are (42_response_parser.md R140, corner
cases), and every `RXF_*` register but `RXF_VALID` too unless the frame is accepted (10_state.md R26). -/
def Obligations.ParserOperationsFrame : Prop :=
  ∀ (i : Instr) (s t : State),
    (∃ inp explen, i = .decode inp explen) ∨ (∃ c received, i = WireCmd.instr c (.response received)) →
    exec i s = .next t →
    t = { s with
      rxfValid := t.rxfValid, rxfSrc := t.rxfSrc, rxfDst := t.rxfDst, rxfCmd := t.rxfCmd
      rxfPlen := t.rxfPlen, rxfPayload := t.rxfPayload, status := t.status, fault := t.fault } ∧
    (t.status = 0#3 ∧ t.rxfValid = true ∧ t.fault = s.fault ∨
      t.status ∈ [1#3, 2#3, 3#3] ∧ t = { s with status := t.status, rxfValid := false } ∨
      t.status = 4#3 ∧ t = { s with status := 4#3, fault := true })

/-- CK_CLEAR and CK_ADD write `ACC`, `STATUS` and, on CONTRACT_ERROR, `FAULT`; SRESET leaves `FAULT` (40_checksum.md R103,
R104, R110); none of them touches a parameter or the port. -/
def Obligations.AccumulatorAndResetFrame : Prop :=
  ∀ (s t : State),
    (∀ i, (i = .ckClear ∨ ∃ inp, i = .ckAdd inp) → exec i s = .next t →
      t = { s with acc := t.acc, status := t.status, fault := t.fault } ∧
      (t.status = 0#3 ∧ t.fault = s.fault ∨ t.status = 4#3 ∧ t.fault = true ∧ t.acc = s.acc)) ∧
    (exec .sreset s = .next t → t.fault = s.fault ∧ t.params = s.params ∧ t.port = s.port)

/-! ## Wire commands -/

/-- 43_wire_commands.md R170, the columns of its table for all values of the parameters: `CMD`, `DST`, `REQ_LEN`, `RSP_LEN`, the
operation that packs the request's payload (of a value `v`), and the operations that read the response's fields. -/
def Obligations.WireCommandTable : Prop :=
  ∀ (p : Params) (v : Word24),
    let row := fun c => (cmdCode p c, cmdDst c, reqLen p c, rspLen p c, requestPacker p v c, responseReaders p c)
    let ack := p.ackPayloadLen
    let limit := fun len => if len = LimitLen.two then some (Instr.pack16 v) else none
    let position := [if p.posSignedGetPosition then Instr.unpack24s 0#8 else .unpack24u 0#8]
    row .getPosition = (0x01#8, 0x12#8, 0, 3, none, position) ∧
    row .moveAbs = (p.cmdMoveAbs, 0x12#8, 3, ack, some (.pack24 v), []) ∧
    row .sync = (p.cmdSync, 0x12#8, 3, ack, some (.pack24 v), []) ∧
    row .gotoDone = (p.cmdGotoDone, 0x12#8, 0, 1, none, [.flagDec 0#8]) ∧
    row .abort = (p.cmdAbort, 0x12#8, 0, ack, none, []) ∧
    row .setMaxPos = (p.cmdSetMaxPos, 0x12#8, p.lenSetMaxPos.toNat, ack, limit p.lenSetMaxPos, []) ∧
    row .setSlewLimit = (p.cmdSetSlewLimit, 0x12#8, p.lenSetSlewLimit.toNat, ack, limit p.lenSetSlewLimit, []) ∧
    row .fanGet = (p.cmdFanGet, 0x13#8, 0, 1, none, [.flagDec 0#8]) ∧
    row .fanSet = (p.cmdFanSet, 0x13#8, 1, 1, some (.flagEnc v), [.flagDec 0#8]) ∧
    row .calGet = (p.cmdCalGet, 0x12#8, 0, 1, none, [.flagDec 0#8]) ∧
    row .calSet = (p.cmdCalSet, 0x12#8, 1, 1, some (.flagEnc v), [.flagDec 0#8]) ∧
    row .tempGet = (p.cmdTempGet, 0x12#8, 0, 4, none, [.decS12 0#8, .decS12 2#8]) ∧
    row .getVersion = (p.cmdGetVersion, 0x12#8, 0, p.versionPayloadLen, none, [])

/-- 30_encoding.md R79: `REQ X` is an ENCODE from the PC with the table's destination and code, a payload of another length is
refused, and `RSP X` is a DECODE that expects `H + RSP_LEN(X) + 1` bytes. -/
def Obligations.WireFormsAreTheirExpansions : Prop :=
  ∀ (s : State) (c : WireCmd), s.params.Legal →
    (∀ payload, payload.length = reqLen s.params c →
      exec (c.instr (.request payload)) s = exec (.encode 0x20#8 (cmdDst c) (cmdCode s.params c) payload) s) ∧
    (∀ payload, payload.length ≠ reqLen s.params c →
      exec (c.instr (.request payload)) s = .refused .requestPayloadLength) ∧
    (∀ received, exec (c.instr (.response received)) s =
      exec (.decode received (BitVec.ofNat 8 (s.params.h + rspLen s.params c + 1))) s)

/-- The operations that pack a command's payload and read its response's fields complete where the table puts them: a packer's
output is a payload the request form takes, and after a response is accepted each reader ends with `STATUS = 0`
(43_wire_commands.md R170, columns "request payload" and "response payload"). -/
def Obligations.WirePackersAndReadersFit : Prop :=
  ∀ (s t : State) (c : WireCmd), s.params.Legal →
    (∀ (v : Word24) (i : Instr), requestPacker s.params v c = some i → exec i s = .next t → t.status = 0#3 →
      ∃ u, exec (c.instr (.request t.output)) t = .next u ∧ u.status = 0#3 ∧
        u.output.length = s.params.h + reqLen s.params c + 1) ∧
    (∀ (received : List Byte) (i : Instr), exec (c.instr (.response received)) s = .next t → t.status = 0#3 →
      i ∈ responseReaders s.params c → ∃ u, exec i t = .next u ∧ u.status = 0#3)

/-- 30_encoding.md R68: the 24-bit value of a position field and the ticks it is read as, for each position-class command, with
the default of `POS_SIGNED`; and so PACK24 of a target `T` in the command's range gives three bytes that are read as `T`
(41_frame_builder.md R122, corner cases). -/
def Obligations.PositionFieldsReadAsTicks : Prop :=
  (∀ (p : Params) (b0 b1 b2 : Byte),
    let u : Int := b0.toNat + 256 * b1.toNat + 65536 * b2.toNat
    let read := fun signed : Bool => some (if signed ∧ 2 ^ 23 ≤ u then u - 2 ^ 24 else u)
    positionTicks p .getPosition b0 b1 b2 = read p.posSignedGetPosition ∧
    positionTicks p .moveAbs b0 b1 b2 = read p.posSignedMoveAbs ∧
    positionTicks p .sync b0 b1 b2 = read p.posSignedSync) ∧
  (State.reset.params.posSignedGetPosition = false ∧ State.reset.params.posSignedMoveAbs = false ∧
    State.reset.params.posSignedSync = false) ∧
  (∀ (s : State) (c : WireCmd) (signed : Bool) (T : Int), s.params.Legal → posSigned s.params c = some signed →
    (if signed then -2 ^ 23 ≤ T ∧ T < 2 ^ 23 else 0 ≤ T ∧ T < 2 ^ 24) →
    ∃ t b0 b1 b2, exec (.pack24 (BitVec.ofInt 24 T)) s = .next t ∧ t.status = 0#3 ∧ t.output = [b0, b1, b2] ∧
      positionTicks s.params c b0 b1 b2 = some T)

/-- 43_wire_commands.md R171, in both layouts: GET_POSITION's request frame, its response's parse, and the position the reader
of the table gives, unsigned or signed by `POS_SIGNED`. -/
def Obligations.GetPositionExchange : Prop :=
  ∀ (s : State) (b0 b1 b2 : Byte), s.params.Legal →
    let lb := s.params.lengthByte
    let request := if lb then [0x3B#8, 0x03#8, 0x20#8, 0x12#8, 0x01#8, 0xCA#8]
      else [0x3B#8, 0x20#8, 0x12#8, 0x01#8, 0xCD#8]
    let response := if lb then [0x3B#8, 0x06#8, 0x12#8, 0x20#8, 0x01#8, b0, b1, b2, -(0x39#8 + b0 + b1 + b2)]
      else [0x3B#8, 0x12#8, 0x20#8, 0x01#8, b0, b1, b2, -(0x33#8 + b0 + b1 + b2)]
    let u := b0.toNat + 256 * b1.toNat + 65536 * b2.toNat
    let t := { s with
      rxfSrc := 0x12#8, rxfDst := 0x20#8, rxfCmd := 0x01#8, rxfPlen := 3#8
      rxfPayload := [b0, b1, b2] ++ List.replicate (s.params.maxPayload - 3) 0x00#8
      rxfValid := true, status := 0#3 }
    exec (.getPosition (.request [])) s = .next { s with
      obuf := request ++ List.replicate (s.params.maxFrame - request.length) 0x00#8
      olen := BitVec.ofNat 8 request.length, status := 0#3 } ∧
    exec (.getPosition (.response response)) s = .next t ∧
    ∀ i ∈ responseReaders s.params .getPosition, exec i t = .next { t with
      result := if s.params.posSignedGetPosition ∧ 2 ^ 23 ≤ u then BitVec.ofInt 32 ((u : Int) - 2 ^ 24)
        else BitVec.ofNat 32 u }

/-- 43_wire_commands.md R172 and R174, in both layouts: after PACK24 of the ticks, MOVE_ABS and SYNC build the frame of the
packed bytes; their response is an ack of `ACK_PAYLOAD_LEN` bytes. -/
def Obligations.TargetCommandsExchange : Prop :=
  ∀ (s : State) (v : Word24) (ack : List Byte), s.params.Legal → ack.length = s.params.ackPayloadLen →
    ∀ cc ∈ [(WireCmd.moveAbs, s.params.cmdMoveAbs), (.sync, s.params.cmdSync)],
    let c := cc.2
    let t0 := BitVec.ofNat 8 v.toNat
    let t1 := BitVec.ofNat 8 (v.toNat / 256)
    let t2 := BitVec.ofNat 8 (v.toNat / 65536)
    let request := if s.params.lengthByte
      then [0x3B#8, 0x06#8, 0x20#8, 0x12#8, c, t0, t1, t2, -(0x38#8 + c + t0 + t1 + t2)]
      else [0x3B#8, 0x20#8, 0x12#8, c, t0, t1, t2, -(0x32#8 + c + t0 + t1 + t2)]
    (∃ t, exec (.pack24 v) s = .next t ∧ t.output = [t0, t1, t2] ∧
      exec (cc.1.instr (.request t.output)) t = .next { s with
        obuf := request ++ List.replicate (s.params.maxFrame - request.length) 0x00#8
        olen := BitVec.ofNat 8 request.length, status := 0#3 }) ∧
    exec (cc.1.instr (.response (frame s.params 0x12#8 0x20#8 c ack))) s = .next { s with
      rxfSrc := 0x12#8, rxfDst := 0x20#8, rxfCmd := c, rxfPlen := BitVec.ofNat 8 ack.length
      rxfPayload := ack ++ List.replicate (s.params.maxPayload - ack.length) 0x00#8
      rxfValid := true, status := 0#3 }

/-- 43_wire_commands.md R175, R179, R181, in both layouts: GOTO_DONE, FAN_GET and CAL_GET ask with an empty payload and are
answered by a flag, which the reader of the table reads. -/
def Obligations.FlagQueriesExchange : Prop :=
  ∀ (s : State) (f : Byte), s.params.Legal →
    ∀ cc ∈ [(WireCmd.gotoDone, 0x12#8, s.params.cmdGotoDone), (.fanGet, 0x13#8, s.params.cmdFanGet),
      (.calGet, 0x12#8, s.params.cmdCalGet)],
    let d := cc.2.1
    let c := cc.2.2
    let request := if s.params.lengthByte then [0x3B#8, 0x03#8, 0x20#8, d, c, -(0x23#8 + d + c)]
      else [0x3B#8, 0x20#8, d, c, -(0x20#8 + d + c)]
    let response := if s.params.lengthByte then [0x3B#8, 0x04#8, d, 0x20#8, c, f, -(0x24#8 + d + c + f)]
      else [0x3B#8, d, 0x20#8, c, f, -(0x20#8 + d + c + f)]
    let t := { s with
      rxfSrc := d, rxfDst := 0x20#8, rxfCmd := c, rxfPlen := 1#8
      rxfPayload := [f] ++ List.replicate (s.params.maxPayload - 1) 0x00#8
      rxfValid := true, status := 0#3 }
    exec (cc.1.instr (.request [])) s = .next { s with
      obuf := request ++ List.replicate (s.params.maxFrame - request.length) 0x00#8
      olen := BitVec.ofNat 8 request.length, status := 0#3 } ∧
    exec (cc.1.instr (.response response)) s = .next t ∧
    ∀ i ∈ responseReaders s.params cc.1, exec i t = .next { t with result := if f = 0x00#8 then 0#32 else 1#32 }

/-- 43_wire_commands.md R180 and R182, in both layouts: after FLAG_ENC, FAN_SET and CAL_SET build the frame of the flag byte;
they are answered by a flag. -/
def Obligations.FlagSettingsExchange : Prop :=
  ∀ (s : State) (v : Word24) (f : Byte), s.params.Legal →
    ∀ cc ∈ [(WireCmd.fanSet, 0x13#8, s.params.cmdFanSet), (.calSet, 0x12#8, s.params.cmdCalSet)],
    let d := cc.2.1
    let c := cc.2.2
    let g := if v.toNat = 0 then 0x00#8 else 0x01#8
    let request := if s.params.lengthByte then [0x3B#8, 0x04#8, 0x20#8, d, c, g, -(0x24#8 + d + c + g)]
      else [0x3B#8, 0x20#8, d, c, g, -(0x20#8 + d + c + g)]
    let response := if s.params.lengthByte then [0x3B#8, 0x04#8, d, 0x20#8, c, f, -(0x24#8 + d + c + f)]
      else [0x3B#8, d, 0x20#8, c, f, -(0x20#8 + d + c + f)]
    let u := { s with
      rxfSrc := d, rxfDst := 0x20#8, rxfCmd := c, rxfPlen := 1#8
      rxfPayload := [f] ++ List.replicate (s.params.maxPayload - 1) 0x00#8
      rxfValid := true, status := 0#3 }
    (∃ t, exec (.flagEnc v) s = .next t ∧ t.output = [g] ∧
      exec (cc.1.instr (.request t.output)) t = .next { s with
        obuf := request ++ List.replicate (s.params.maxFrame - request.length) 0x00#8
        olen := BitVec.ofNat 8 request.length, status := 0#3 }) ∧
    exec (cc.1.instr (.response response)) s = .next u ∧
    ∀ i ∈ responseReaders s.params cc.1, exec i u = .next { u with result := if f = 0x00#8 then 0#32 else 1#32 }

/-- 43_wire_commands.md R176 and R184, in both layouts: ABORT and GET_VERSION ask with an empty payload; ABORT is answered by an
ack, GET_VERSION by `VERSION_PAYLOAD_LEN` raw bytes, which stand in `RXF_PAYLOAD` uninterpreted. -/
def Obligations.AbortAndVersionExchange : Prop :=
  ∀ (s : State) (bytes : List Byte), s.params.Legal →
    ∀ cc ∈ [(WireCmd.abort, s.params.cmdAbort, s.params.ackPayloadLen),
      (.getVersion, s.params.cmdGetVersion, s.params.versionPayloadLen)],
    let c := cc.2.1
    let request := if s.params.lengthByte then [0x3B#8, 0x03#8, 0x20#8, 0x12#8, c, 0xCB#8 - c]
      else [0x3B#8, 0x20#8, 0x12#8, c, 0xCE#8 - c]
    exec (cc.1.instr (.request [])) s = .next { s with
      obuf := request ++ List.replicate (s.params.maxFrame - request.length) 0x00#8
      olen := BitVec.ofNat 8 request.length, status := 0#3 } ∧
    (bytes.length = cc.2.2 →
      exec (cc.1.instr (.response (frame s.params 0x12#8 0x20#8 c bytes))) s = .next { s with
        rxfSrc := 0x12#8, rxfDst := 0x20#8, rxfCmd := c, rxfPlen := BitVec.ofNat 8 bytes.length
        rxfPayload := bytes ++ List.replicate (s.params.maxPayload - bytes.length) 0x00#8
        rxfValid := true, status := 0#3 })

/-- 43_wire_commands.md R177 and R178, in both layouts: SET_MAX_POS and SET_SLEW_LIMIT with a 1-byte payload where the length
parameter is 1, and with PACK16's two bytes where it is 2; their response is an ack. -/
def Obligations.LimitCommandsExchange : Prop :=
  ∀ (s : State) (v : Word24) (b : Byte) (ack : List Byte), s.params.Legal → ack.length = s.params.ackPayloadLen →
    ∀ cc ∈ [(WireCmd.setMaxPos, s.params.cmdSetMaxPos, s.params.lenSetMaxPos),
      (.setSlewLimit, s.params.cmdSetSlewLimit, s.params.lenSetSlewLimit)],
    let c := cc.2.1
    let v0 := BitVec.ofNat 8 v.toNat
    let v1 := BitVec.ofNat 8 (v.toNat / 256)
    let short := if s.params.lengthByte then [0x3B#8, 0x04#8, 0x20#8, 0x12#8, c, b, -(0x36#8 + c + b)]
      else [0x3B#8, 0x20#8, 0x12#8, c, b, -(0x32#8 + c + b)]
    let long := if s.params.lengthByte then [0x3B#8, 0x05#8, 0x20#8, 0x12#8, c, v0, v1, -(0x37#8 + c + v0 + v1)]
      else [0x3B#8, 0x20#8, 0x12#8, c, v0, v1, -(0x32#8 + c + v0 + v1)]
    (cc.2.2 = .one → exec (cc.1.instr (.request [b])) s = .next { s with
      obuf := short ++ List.replicate (s.params.maxFrame - short.length) 0x00#8
      olen := BitVec.ofNat 8 short.length, status := 0#3 }) ∧
    (cc.2.2 = .two → v.toNat ≤ 0xFFFF → ∃ t, exec (.pack16 v) s = .next t ∧ t.output = [v0, v1] ∧
      exec (cc.1.instr (.request t.output)) t = .next { s with
        obuf := long ++ List.replicate (s.params.maxFrame - long.length) 0x00#8
        olen := BitVec.ofNat 8 long.length, status := 0#3 }) ∧
    exec (cc.1.instr (.response (frame s.params 0x12#8 0x20#8 c ack))) s = .next { s with
      rxfSrc := 0x12#8, rxfDst := 0x20#8, rxfCmd := c, rxfPlen := BitVec.ofNat 8 ack.length
      rxfPayload := ack ++ List.replicate (s.params.maxPayload - ack.length) 0x00#8
      rxfValid := true, status := 0#3 }

/-- 43_wire_commands.md R183, in both layouts: TEMP_GET asks with an empty payload; its response has two 12-bit fields, the
primary sensor's at offset 0 and the secondary's at offset 2 (30_encoding.md R72), which the readers of the table read in
that order. -/
def Obligations.TempGetExchange : Prop :=
  ∀ (s : State) (t0 t1 t2 t3 : Byte), s.params.Legal →
    let c := s.params.cmdTempGet
    let request := if s.params.lengthByte then [0x3B#8, 0x03#8, 0x20#8, 0x12#8, c, 0xCB#8 - c]
      else [0x3B#8, 0x20#8, 0x12#8, c, 0xCE#8 - c]
    let response := if s.params.lengthByte
      then [0x3B#8, 0x07#8, 0x12#8, 0x20#8, c, t0, t1, t2, t3, 0xC7#8 - c - t0 - t1 - t2 - t3]
      else [0x3B#8, 0x12#8, 0x20#8, c, t0, t1, t2, t3, 0xCE#8 - c - t0 - t1 - t2 - t3]
    let reading := fun first second : Byte =>
      if s.params.s12NibbleFirst then (first.setWidth 4 ++ second).signExtend 32
      else (second.setWidth 4 ++ first).signExtend 32
    let t := { s with
      rxfSrc := 0x12#8, rxfDst := 0x20#8, rxfCmd := c, rxfPlen := 4#8
      rxfPayload := [t0, t1, t2, t3] ++ List.replicate (s.params.maxPayload - 4) 0x00#8
      rxfValid := true, status := 0#3 }
    exec (.tempGet (.request [])) s = .next { s with
      obuf := request ++ List.replicate (s.params.maxFrame - request.length) 0x00#8
      olen := BitVec.ofNat 8 request.length, status := 0#3 } ∧
    exec (.tempGet (.response response)) s = .next t ∧
    (responseReaders s.params .tempGet).map (fun i => exec i t) =
      [.next { t with result := reading t0 t1 }, .next { t with result := reading t2 t3 }]
end

