-- ==== Sys2Proof/Laws/State.lean ====
section
/-! SUPPORT. One lemma per field per update: what each named update of spec/10_state.md R20's registers leaves in each. -/

namespace Sys2Proof.Machine

open Sys2Proof

/-! ### `State.raise` -/

@[simp] theorem State.raise_params (s : State) (d : Bool) (e : Status) : (s.raise d e).params = s.params := rfl
@[simp] theorem State.raise_acc (s : State) (d : Bool) (e : Status) : (s.raise d e).acc = s.acc := rfl
@[simp] theorem State.raise_status (s : State) (d : Bool) (e : Status) : (s.raise d e).status = e.code := rfl
@[simp] theorem State.raise_fault (s : State) (d : Bool) (e : Status) :
    (s.raise d e).fault = faultAfter e s.fault := rfl
@[simp] theorem State.raise_obuf (s : State) (d : Bool) (e : Status) : (s.raise d e).obuf = s.obuf := rfl
@[simp] theorem State.raise_olen (s : State) (d : Bool) (e : Status) : (s.raise d e).olen = s.olen := rfl
@[simp] theorem State.raise_result (s : State) (d : Bool) (e : Status) : (s.raise d e).result = s.result := rfl
@[simp] theorem State.raise_rxfValid (s : State) (d : Bool) (e : Status) :
    (s.raise d e).rxfValid = rxfValidAfter e d s.rxfValid := rfl
@[simp] theorem State.raise_rxfSrc (s : State) (d : Bool) (e : Status) : (s.raise d e).rxfSrc = s.rxfSrc := rfl
@[simp] theorem State.raise_rxfDst (s : State) (d : Bool) (e : Status) : (s.raise d e).rxfDst = s.rxfDst := rfl
@[simp] theorem State.raise_rxfCmd (s : State) (d : Bool) (e : Status) : (s.raise d e).rxfCmd = s.rxfCmd := rfl
@[simp] theorem State.raise_rxfPlen (s : State) (d : Bool) (e : Status) : (s.raise d e).rxfPlen = s.rxfPlen := rfl
@[simp] theorem State.raise_rxfPayload (s : State) (d : Bool) (e : Status) :
    (s.raise d e).rxfPayload = s.rxfPayload := rfl
@[simp] theorem State.raise_port (s : State) (d : Bool) (e : Status) : (s.raise d e).port = s.port := rfl

/-! ### `State.complete` -/

@[simp] theorem State.complete_params (s : State) : (s.complete).params = s.params := rfl
@[simp] theorem State.complete_acc (s : State) : (s.complete).acc = s.acc := rfl
@[simp] theorem State.complete_status (s : State) : (s.complete).status = 0#3 := rfl
@[simp] theorem State.complete_fault (s : State) : (s.complete).fault = s.fault := rfl
@[simp] theorem State.complete_obuf (s : State) : (s.complete).obuf = s.obuf := rfl
@[simp] theorem State.complete_olen (s : State) : (s.complete).olen = s.olen := rfl
@[simp] theorem State.complete_result (s : State) : (s.complete).result = s.result := rfl
@[simp] theorem State.complete_rxfValid (s : State) : (s.complete).rxfValid = s.rxfValid := rfl
@[simp] theorem State.complete_rxfSrc (s : State) : (s.complete).rxfSrc = s.rxfSrc := rfl
@[simp] theorem State.complete_rxfDst (s : State) : (s.complete).rxfDst = s.rxfDst := rfl
@[simp] theorem State.complete_rxfCmd (s : State) : (s.complete).rxfCmd = s.rxfCmd := rfl
@[simp] theorem State.complete_rxfPlen (s : State) : (s.complete).rxfPlen = s.rxfPlen := rfl
@[simp] theorem State.complete_rxfPayload (s : State) : (s.complete).rxfPayload = s.rxfPayload := rfl
@[simp] theorem State.complete_port (s : State) : (s.complete).port = s.port := rfl

/-! ### `State.setAcc` -/

@[simp] theorem State.setAcc_params (s : State) (v : Byte) : (s.setAcc v).params = s.params := rfl
@[simp] theorem State.setAcc_acc (s : State) (v : Byte) : (s.setAcc v).acc = v := rfl
@[simp] theorem State.setAcc_status (s : State) (v : Byte) : (s.setAcc v).status = s.status := rfl
@[simp] theorem State.setAcc_fault (s : State) (v : Byte) : (s.setAcc v).fault = s.fault := rfl
@[simp] theorem State.setAcc_obuf (s : State) (v : Byte) : (s.setAcc v).obuf = s.obuf := rfl
@[simp] theorem State.setAcc_olen (s : State) (v : Byte) : (s.setAcc v).olen = s.olen := rfl
@[simp] theorem State.setAcc_result (s : State) (v : Byte) : (s.setAcc v).result = s.result := rfl
@[simp] theorem State.setAcc_rxfValid (s : State) (v : Byte) : (s.setAcc v).rxfValid = s.rxfValid := rfl
@[simp] theorem State.setAcc_rxfSrc (s : State) (v : Byte) : (s.setAcc v).rxfSrc = s.rxfSrc := rfl
@[simp] theorem State.setAcc_rxfDst (s : State) (v : Byte) : (s.setAcc v).rxfDst = s.rxfDst := rfl
@[simp] theorem State.setAcc_rxfCmd (s : State) (v : Byte) : (s.setAcc v).rxfCmd = s.rxfCmd := rfl
@[simp] theorem State.setAcc_rxfPlen (s : State) (v : Byte) : (s.setAcc v).rxfPlen = s.rxfPlen := rfl
@[simp] theorem State.setAcc_rxfPayload (s : State) (v : Byte) : (s.setAcc v).rxfPayload = s.rxfPayload := rfl
@[simp] theorem State.setAcc_port (s : State) (v : Byte) : (s.setAcc v).port = s.port := rfl

/-! ### `State.setResult` -/

@[simp] theorem State.setResult_params (s : State) (v : Word32) : (s.setResult v).params = s.params := rfl
@[simp] theorem State.setResult_acc (s : State) (v : Word32) : (s.setResult v).acc = s.acc := rfl
@[simp] theorem State.setResult_status (s : State) (v : Word32) : (s.setResult v).status = s.status := rfl
@[simp] theorem State.setResult_fault (s : State) (v : Word32) : (s.setResult v).fault = s.fault := rfl
@[simp] theorem State.setResult_obuf (s : State) (v : Word32) : (s.setResult v).obuf = s.obuf := rfl
@[simp] theorem State.setResult_olen (s : State) (v : Word32) : (s.setResult v).olen = s.olen := rfl
@[simp] theorem State.setResult_result (s : State) (v : Word32) : (s.setResult v).result = v := rfl
@[simp] theorem State.setResult_rxfValid (s : State) (v : Word32) : (s.setResult v).rxfValid = s.rxfValid := rfl
@[simp] theorem State.setResult_rxfSrc (s : State) (v : Word32) : (s.setResult v).rxfSrc = s.rxfSrc := rfl
@[simp] theorem State.setResult_rxfDst (s : State) (v : Word32) : (s.setResult v).rxfDst = s.rxfDst := rfl
@[simp] theorem State.setResult_rxfCmd (s : State) (v : Word32) : (s.setResult v).rxfCmd = s.rxfCmd := rfl
@[simp] theorem State.setResult_rxfPlen (s : State) (v : Word32) : (s.setResult v).rxfPlen = s.rxfPlen := rfl
@[simp] theorem State.setResult_rxfPayload (s : State) (v : Word32) : (s.setResult v).rxfPayload = s.rxfPayload := rfl
@[simp] theorem State.setResult_port (s : State) (v : Word32) : (s.setResult v).port = s.port := rfl

/-! ### `State.writeOut` -/

@[simp] theorem State.writeOut_params (s : State) (bs : List Byte) : (s.writeOut bs).params = s.params := rfl
@[simp] theorem State.writeOut_acc (s : State) (bs : List Byte) : (s.writeOut bs).acc = s.acc := rfl
@[simp] theorem State.writeOut_status (s : State) (bs : List Byte) : (s.writeOut bs).status = s.status := rfl
@[simp] theorem State.writeOut_fault (s : State) (bs : List Byte) : (s.writeOut bs).fault = s.fault := rfl
@[simp] theorem State.writeOut_obuf (s : State) (bs : List Byte) :
    (s.writeOut bs).obuf = padTo s.params.maxFrame bs := rfl
@[simp] theorem State.writeOut_olen (s : State) (bs : List Byte) :
    (s.writeOut bs).olen = BitVec.ofNat 8 bs.length := rfl
@[simp] theorem State.writeOut_result (s : State) (bs : List Byte) : (s.writeOut bs).result = s.result := rfl
@[simp] theorem State.writeOut_rxfValid (s : State) (bs : List Byte) : (s.writeOut bs).rxfValid = s.rxfValid := rfl
@[simp] theorem State.writeOut_rxfSrc (s : State) (bs : List Byte) : (s.writeOut bs).rxfSrc = s.rxfSrc := rfl
@[simp] theorem State.writeOut_rxfDst (s : State) (bs : List Byte) : (s.writeOut bs).rxfDst = s.rxfDst := rfl
@[simp] theorem State.writeOut_rxfCmd (s : State) (bs : List Byte) : (s.writeOut bs).rxfCmd = s.rxfCmd := rfl
@[simp] theorem State.writeOut_rxfPlen (s : State) (bs : List Byte) : (s.writeOut bs).rxfPlen = s.rxfPlen := rfl
@[simp] theorem State.writeOut_rxfPayload (s : State) (bs : List Byte) :
    (s.writeOut bs).rxfPayload = s.rxfPayload := rfl
@[simp] theorem State.writeOut_port (s : State) (bs : List Byte) : (s.writeOut bs).port = s.port := rfl

/-! ### `State.acceptFrame` -/

@[simp] theorem State.acceptFrame_params (s : State) (inp : List Byte) : (s.acceptFrame inp).params = s.params := rfl
@[simp] theorem State.acceptFrame_acc (s : State) (inp : List Byte) : (s.acceptFrame inp).acc = s.acc := rfl
@[simp] theorem State.acceptFrame_status (s : State) (inp : List Byte) : (s.acceptFrame inp).status = s.status := rfl
@[simp] theorem State.acceptFrame_fault (s : State) (inp : List Byte) : (s.acceptFrame inp).fault = s.fault := rfl
@[simp] theorem State.acceptFrame_obuf (s : State) (inp : List Byte) : (s.acceptFrame inp).obuf = s.obuf := rfl
@[simp] theorem State.acceptFrame_olen (s : State) (inp : List Byte) : (s.acceptFrame inp).olen = s.olen := rfl
@[simp] theorem State.acceptFrame_result (s : State) (inp : List Byte) : (s.acceptFrame inp).result = s.result := rfl
@[simp] theorem State.acceptFrame_rxfValid (s : State) (inp : List Byte) : (s.acceptFrame inp).rxfValid = true := rfl
@[simp] theorem State.acceptFrame_rxfSrc (s : State) (inp : List Byte) :
    (s.acceptFrame inp).rxfSrc = inputByte inp (s.params.h - 3) := rfl
@[simp] theorem State.acceptFrame_rxfDst (s : State) (inp : List Byte) :
    (s.acceptFrame inp).rxfDst = inputByte inp (s.params.h - 2) := rfl
@[simp] theorem State.acceptFrame_rxfCmd (s : State) (inp : List Byte) :
    (s.acceptFrame inp).rxfCmd = inputByte inp (s.params.h - 1) := rfl
@[simp] theorem State.acceptFrame_rxfPlen (s : State) (inp : List Byte) :
    (s.acceptFrame inp).rxfPlen = BitVec.ofNat 8 (inp.length - s.params.h - 1) := rfl
@[simp] theorem State.acceptFrame_rxfPayload (s : State) (inp : List Byte) :
    (s.acceptFrame inp).rxfPayload = padTo s.params.maxPayload ((inp.drop s.params.h).take (inp.length - s.params.h - 1)) := rfl
@[simp] theorem State.acceptFrame_port (s : State) (inp : List Byte) : (s.acceptFrame inp).port = s.port := rfl

/-! ### `State.withPort` -/

@[simp] theorem State.withPort_params (s : State) (p : List HostEvent) : (s.withPort p).params = s.params := rfl
@[simp] theorem State.withPort_acc (s : State) (p : List HostEvent) : (s.withPort p).acc = s.acc := rfl
@[simp] theorem State.withPort_status (s : State) (p : List HostEvent) : (s.withPort p).status = s.status := rfl
@[simp] theorem State.withPort_fault (s : State) (p : List HostEvent) : (s.withPort p).fault = s.fault := rfl
@[simp] theorem State.withPort_obuf (s : State) (p : List HostEvent) : (s.withPort p).obuf = s.obuf := rfl
@[simp] theorem State.withPort_olen (s : State) (p : List HostEvent) : (s.withPort p).olen = s.olen := rfl
@[simp] theorem State.withPort_result (s : State) (p : List HostEvent) : (s.withPort p).result = s.result := rfl
@[simp] theorem State.withPort_rxfValid (s : State) (p : List HostEvent) : (s.withPort p).rxfValid = s.rxfValid := rfl
@[simp] theorem State.withPort_rxfSrc (s : State) (p : List HostEvent) : (s.withPort p).rxfSrc = s.rxfSrc := rfl
@[simp] theorem State.withPort_rxfDst (s : State) (p : List HostEvent) : (s.withPort p).rxfDst = s.rxfDst := rfl
@[simp] theorem State.withPort_rxfCmd (s : State) (p : List HostEvent) : (s.withPort p).rxfCmd = s.rxfCmd := rfl
@[simp] theorem State.withPort_rxfPlen (s : State) (p : List HostEvent) : (s.withPort p).rxfPlen = s.rxfPlen := rfl
@[simp] theorem State.withPort_rxfPayload (s : State) (p : List HostEvent) :
    (s.withPort p).rxfPayload = s.rxfPayload := rfl
@[simp] theorem State.withPort_port (s : State) (p : List HostEvent) : (s.withPort p).port = p := rfl

/-! ### `State.hardwareReset` -/

@[simp] theorem State.hardwareReset_params (s : State) : (s.hardwareReset).params = s.params := rfl
@[simp] theorem State.hardwareReset_acc (s : State) : (s.hardwareReset).acc = 0#8 := rfl
@[simp] theorem State.hardwareReset_status (s : State) : (s.hardwareReset).status = 0#3 := rfl
@[simp] theorem State.hardwareReset_fault (s : State) : (s.hardwareReset).fault = false := rfl
@[simp] theorem State.hardwareReset_obuf (s : State) :
    (s.hardwareReset).obuf = List.replicate s.params.maxFrame 0#8 := rfl
@[simp] theorem State.hardwareReset_olen (s : State) : (s.hardwareReset).olen = 0#8 := rfl
@[simp] theorem State.hardwareReset_result (s : State) : (s.hardwareReset).result = 0#32 := rfl
@[simp] theorem State.hardwareReset_rxfValid (s : State) : (s.hardwareReset).rxfValid = false := rfl
@[simp] theorem State.hardwareReset_rxfSrc (s : State) : (s.hardwareReset).rxfSrc = 0#8 := rfl
@[simp] theorem State.hardwareReset_rxfDst (s : State) : (s.hardwareReset).rxfDst = 0#8 := rfl
@[simp] theorem State.hardwareReset_rxfCmd (s : State) : (s.hardwareReset).rxfCmd = 0#8 := rfl
@[simp] theorem State.hardwareReset_rxfPlen (s : State) : (s.hardwareReset).rxfPlen = 0#8 := rfl
@[simp] theorem State.hardwareReset_rxfPayload (s : State) :
    (s.hardwareReset).rxfPayload = List.replicate s.params.maxPayload 0#8 := rfl
@[simp] theorem State.hardwareReset_port (s : State) : (s.hardwareReset).port = s.port := rfl

/-! ### `State.softReset` -/

@[simp] theorem State.softReset_params (s : State) : (s.softReset).params = s.params := rfl
@[simp] theorem State.softReset_acc (s : State) : (s.softReset).acc = 0#8 := rfl
@[simp] theorem State.softReset_status (s : State) : (s.softReset).status = 0#3 := rfl
@[simp] theorem State.softReset_fault (s : State) : (s.softReset).fault = s.fault := rfl
@[simp] theorem State.softReset_obuf (s : State) : (s.softReset).obuf = List.replicate s.params.maxFrame 0#8 := rfl
@[simp] theorem State.softReset_olen (s : State) : (s.softReset).olen = 0#8 := rfl
@[simp] theorem State.softReset_result (s : State) : (s.softReset).result = 0#32 := rfl
@[simp] theorem State.softReset_rxfValid (s : State) : (s.softReset).rxfValid = false := rfl
@[simp] theorem State.softReset_rxfSrc (s : State) : (s.softReset).rxfSrc = 0#8 := rfl
@[simp] theorem State.softReset_rxfDst (s : State) : (s.softReset).rxfDst = 0#8 := rfl
@[simp] theorem State.softReset_rxfCmd (s : State) : (s.softReset).rxfCmd = 0#8 := rfl
@[simp] theorem State.softReset_rxfPlen (s : State) : (s.softReset).rxfPlen = 0#8 := rfl
@[simp] theorem State.softReset_rxfPayload (s : State) :
    (s.softReset).rxfPayload = List.replicate s.params.maxPayload 0#8 := rfl
@[simp] theorem State.softReset_port (s : State) : (s.softReset).port = s.port := rfl

/-- Two states with the same fields are equal: how a full next state is compared. -/
theorem State.ext_fields (s t : State)
    (h_params : s.params = t.params)
    (h_acc : s.acc = t.acc)
    (h_status : s.status = t.status)
    (h_fault : s.fault = t.fault)
    (h_obuf : s.obuf = t.obuf)
    (h_olen : s.olen = t.olen)
    (h_result : s.result = t.result)
    (h_rxfValid : s.rxfValid = t.rxfValid)
    (h_rxfSrc : s.rxfSrc = t.rxfSrc)
    (h_rxfDst : s.rxfDst = t.rxfDst)
    (h_rxfCmd : s.rxfCmd = t.rxfCmd)
    (h_rxfPlen : s.rxfPlen = t.rxfPlen)
    (h_rxfPayload : s.rxfPayload = t.rxfPayload)
    (h_port : s.port = t.port) : s = t := by
  cases s; cases t; simp_all

end Sys2Proof.Machine
end

