-- ==== Sys2Proof/Laws/Bytes.lean ====
section
/-! SUPPORT. Small lemmas of the functions on bytes: sums, the checksum, the frame, the buffers. -/

namespace Sys2Proof

/-! ### The parameters -/

theorem Params.h_ge (p : Params) : 4 ≤ p.h ∧ p.h ≤ 5 := by
  unfold Params.h; split <;> omega

theorem Params.Legal.maxFrame_le {p : Params} (hp : p.Legal) : p.maxFrame ≤ 255 := by
  have := p.h_ge; have := hp.maxPayload_le; simp only [Params.maxFrame]; omega

end Sys2Proof

namespace Sys2Proof.Machine

open Sys2Proof

/-! ### Sums and the checksum -/

@[simp] theorem byteSum_nil : byteSum [] = 0 := rfl

@[simp] theorem byteSum_cons (b : Byte) (bs : List Byte) : byteSum (b :: bs) = b.toNat + byteSum bs := rfl

@[simp] theorem byteSum_append (as bs : List Byte) : byteSum (as ++ bs) = byteSum as + byteSum bs := by
  simp [byteSum]

theorem checksum_toNat (bs : List Byte) : (checksum bs).toNat = (256 - byteSum bs % 256) % 256 := by
  simp only [checksum, BitVec.toNat_ofNat]; omega

/-- The two's-complement form of the checksum (spec/40_checksum.md R100). -/
theorem checksum_eq_neg (bs : List Byte) : checksum bs = -BitVec.ofNat 8 (byteSum bs) := by
  apply BitVec.eq_of_toNat_eq
  rw [checksum_toNat, BitVec.toNat_neg, BitVec.toNat_ofNat]

/-- The checksum depends on the sum's residue alone. -/
theorem checksum_congr {as bs : List Byte} (h : byteSum as % 256 = byteSum bs % 256) : checksum as = checksum bs := by
  simp [checksum, h]

theorem sumsToZero_iff (bs : List Byte) : sumsToZero bs = true ↔ byteSum bs % 256 = 0 := by
  simp [sumsToZero]

/-! ### The frame -/

theorem frameBody_length (c : Params) (src dst cmd : Byte) (p : List Byte) :
    (frameBody c src dst cmd p).length = c.h - 1 + p.length := by
  unfold frameBody Params.h; split <;> simp <;> omega

/-- The length of a frame (spec/30_encoding.md R64). -/
theorem frame_length (c : Params) (src dst cmd : Byte) (p : List Byte) :
    (frame c src dst cmd p).length = c.h + p.length + 1 := by
  have := c.h_ge
  simp only [frame, List.length_append, List.length_singleton, frameBody_length]; omega

/-- A sequence followed by its checksum sums to zero (spec/40_checksum.md R101 of the checksum's own bytes). -/
theorem byteSum_with_checksum (bs : List Byte) : byteSum (bs ++ [checksum bs]) % 256 = 0 := by
  simp only [byteSum_append, byteSum_cons, byteSum_nil, checksum_toNat]; omega

/-! ### Buffers -/

theorem padTo_length {n : Nat} {bs : List Byte} (h : bs.length ≤ n) : (padTo n bs).length = n := by
  simp [padTo]; omega

theorem padTo_take (n : Nat) (bs : List Byte) : (padTo n bs).take bs.length = bs := by
  simp [padTo]

/-- Past the bytes written, a buffer holds `0x00` (spec/10_state.md R24, R26). -/
theorem padTo_getD_zero {n : Nat} {bs : List Byte} {k : Nat} (h : bs.length ≤ k) :
    (padTo n bs).getD k 0x00#8 = 0x00#8 := by
  simp only [padTo, List.getD_eq_getElem?_getD, List.getElem?_append_right h, List.getElem?_replicate]
  split <;> rfl

theorem padTo_drop_zero {n : Nat} {bs : List Byte} : ∀ b ∈ (padTo n bs).drop bs.length, b = 0x00#8 := by
  intro b hb
  simp only [padTo, List.drop_left] at hb
  exact (List.mem_replicate.mp hb).2

/-- What the block outputs after a write of its output buffer. -/
theorem output_writeOut {s : State} {bs : List Byte} (h : bs.length ≤ 255) : (s.writeOut bs).output = bs := by
  have : bs.length % 256 = bs.length := Nat.mod_eq_of_lt (by omega)
  simp [State.output, padTo, this]

end Sys2Proof.Machine
end

