-- ==== Sys2Proof/Laws/Decode.lean ====
section
/-! SUPPORT. What the decoder reads of the records the encoder writes, and what each format of a record decodes to. -/

namespace Sys2Proof

@[simp] theorem recordBytes_length (f : RecordFields) : (recordBytes f).length = 10 + f.inp.length := by
  simp [recordBytes]; omega

@[simp] theorem recordByte_first (f : RecordFields) : recordByte (recordBytes f) 0 = f.first := rfl

@[simp] theorem recordSrc_bytes (f : RecordFields) : recordSrc (recordBytes f) = f.src := rfl

@[simp] theorem recordDst_bytes (f : RecordFields) : recordDst (recordBytes f) = f.dst := rfl

@[simp] theorem recordCmd_bytes (f : RecordFields) : recordCmd (recordBytes f) = f.cmd := rfl

@[simp] theorem recordInlen_bytes (f : RecordFields) : recordInlen (recordBytes f) = BitVec.ofNat 8 f.inp.length := rfl

@[simp] theorem recordExplen_bytes (f : RecordFields) : recordExplen (recordBytes f) = f.explen := rfl

@[simp] theorem recordOff_bytes (f : RecordFields) : recordOff (recordBytes f) = f.off := rfl

/-- Appending a byte below a word, as arithmetic. -/
theorem toNat_append_byte {n : Nat} (a : BitVec n) (b : Byte) : (a ++ b).toNat = a.toNat * 256 + b.toNat := by
  rw [BitVec.toNat_append, ← Nat.shiftLeft_add_eq_or_of_lt b.isLt, Nat.shiftLeft_eq]

/-- The three bytes of `VAL` in a record, put together again. -/
theorem valBytes_append (v : Word24) : v.extractLsb' 16 8 ++ v.extractLsb' 8 8 ++ v.extractLsb' 0 8 = v := by
  apply BitVec.eq_of_toNat_eq
  have hv := v.isLt
  simp only [toNat_append_byte, BitVec.extractLsb'_toNat, Nat.shiftRight_eq_div_pow]
  omega

@[simp] theorem recordVal_bytes (f : RecordFields) : recordVal (recordBytes f) = f.val := valBytes_append f.val

/-- Past the ten bytes of fields a record holds `IN`. -/
theorem recordByte_input (f : RecordFields) (k : Nat) :
    recordByte (recordBytes f) (10 + k) = f.inp.getD k 0#8 := by
  rw [Nat.add_comm]; rfl

/-- A list is the map of its own elements by index. -/
theorem range_map_getD (bs : List Byte) : (List.range bs.length).map (fun k => bs.getD k 0#8) = bs := by
  apply List.ext_getElem (by simp)
  intro k h1 h2
  simp [List.getD_eq_getElem?_getD, h2]

/-- `IN[0..INLEN-1]` of an encoded record, where `INLEN` counts all of it. -/
theorem recordInput_bytes (f : RecordFields) (h : f.inp.length ≤ 255) : recordInput (recordBytes f) = f.inp := by
  have h' : f.inp.length % 256 = f.inp.length := Nat.mod_eq_of_lt (by omega)
  simp only [recordInput, recordInlen_bytes, BitVec.toNat_ofNat, show 2 ^ 8 = 256 from rfl, h', recordByte_input]
  exact range_map_getD f.inp

/-- What `IN` a record is read for is counted by an 8-bit field. -/
theorem recordInput_length_le (r : List Byte) : (recordInput r).length ≤ 255 := by
  have := (recordInlen r).isLt
  simp only [recordInput, List.length_map, List.length_range]; omega

theorem decode_request_format {r : List Byte} (h : recordFormat r = 0) : decode r = .ok (decodeOp r) := by
  simp [decode, h]

/-- The numbers of the commands are what the decoder reads. -/
theorem WireCmd.instr_formOk (c : WireCmd) (f : WireForm) : (c.instr f).wellFormed = c.formOk f := by
  cases c <;> rfl

theorem reqLenClass_le (c : WireCmd) : ∀ n ∈ c.reqLenClass, n ≤ 3 := by
  cases c <;> decide

end Sys2Proof
end

