-- ==== Sys2Proof/Laws/Ops.lean ====
section
/-! SUPPORT. For each shared operation one lemma that says once everything it can do, and one for `exec` made of them. -/

namespace Sys2Proof.Machine

open Sys2Proof

/-- Everything `buildFrame` can do. -/
theorem buildFrame_cases {src dst cmd : Byte} {p : List Byte} {s t : State}
    (h : buildFrame src dst cmd p s = .next t) :
    (s.params.maxPayload < p.length ∧ t = s.raise false .contractError) ∨
    (p.length ≤ s.params.maxPayload ∧ t = (s.writeOut (frame s.params src dst cmd p)).complete) := by
  unfold buildFrame contractError at h
  split at h
  · exact .inl ⟨by omega, by simpa using h.symm⟩
  · exact .inr ⟨by omega, by simpa using h.symm⟩

/-- Everything `parseFrame` can do: it always answers a next state. -/
theorem parseFrame_cases (inp : List Byte) (e : Nat) (s : State) :
    ((e < s.params.h + 1 ∨ e > s.params.maxFrame ∨ inp.length > s.params.maxFrame) ∧
      parseFrame inp e s = .next (s.raise true .contractError)) ∨
    (s.params.h + 1 ≤ e ∧ e ≤ s.params.maxFrame ∧ inp.length ≤ s.params.maxFrame ∧
      ((inp.length ≠ e ∧ parseFrame inp e s = .next (s.raise true .frameLengthError)) ∨
       (inp.length = e ∧ inputByte inp 0 ≠ startByte ∧
          parseFrame inp e s = .next (s.raise true .malformedStartError)) ∨
       (inp.length = e ∧ inputByte inp 0 = startByte ∧ byteSum (inp.drop 1) % 256 ≠ 0 ∧
          parseFrame inp e s = .next (s.raise true .checksumError)) ∨
       (inp.length = e ∧ inputByte inp 0 = startByte ∧ byteSum (inp.drop 1) % 256 = 0 ∧
          lengthByteWrong s.params inp = true ∧ parseFrame inp e s = .next (s.raise true .frameLengthError)) ∨
       (inp.length = e ∧ inputByte inp 0 = startByte ∧ byteSum (inp.drop 1) % 256 = 0 ∧
          lengthByteWrong s.params inp = false ∧ parseFrame inp e s = .next (s.acceptFrame inp).complete))) := by
  unfold parseFrame decodeError
  by_cases h1 : e < s.params.h + 1 ∨ e > s.params.maxFrame ∨ inp.length > s.params.maxFrame
  · exact .inl ⟨h1, by rw [if_pos h1]⟩
  refine .inr ⟨by omega, by omega, by omega, ?_⟩
  rw [if_neg h1]
  by_cases h2 : inp.length = e
  swap; · exact .inl ⟨h2, by rw [if_pos h2]⟩
  by_cases h3 : inputByte inp 0 = startByte
  swap; · exact .inr (.inl ⟨h2, h3, by simp [h2, h3]⟩)
  by_cases h4 : sumsToZero (inp.drop 1)
  swap; · exact .inr (.inr (.inl ⟨h2, h3, by simpa [sumsToZero] using h4, by rw [if_neg (by simpa using h2), if_neg (by simpa using h3), if_pos (by simpa using h4)]⟩))
  have h4' := (sumsToZero_iff _).mp h4
  by_cases h5 : lengthByteWrong s.params inp
  · exact .inr (.inr (.inr (.inl ⟨h2, h3, h4', h5, by
      rw [if_neg (by simpa using h2), if_neg (by simpa using h3), if_neg (by simpa using h4), if_pos h5]⟩)))
  · exact .inr (.inr (.inr (.inr ⟨h2, h3, h4', by simpa using h5, by
      rw [if_neg (by simpa using h2), if_neg (by simpa using h3), if_neg (by simpa using h4), if_neg h5]⟩)))

/-- Everything `extractField` can do. -/
theorem extractField_cases {off : Byte} {w : Nat} {v : Word32} {s t : State}
    (h : extractField off w v s = .next t) :
    (s.fieldReadable off w = true ∧ t = (s.setResult v).complete) ∨
    (s.fieldReadable off w = false ∧ t = s.raise false .contractError) := by
  unfold extractField contractError at h
  cases hr : s.fieldReadable off w <;> simp only [hr, if_true] at h
  · exact .inr ⟨rfl, by simpa using h.symm⟩
  · exact .inl ⟨rfl, by simpa using h.symm⟩

theorem fieldReadable_iff (s : State) (off : Byte) (w : Nat) :
    s.fieldReadable off w = true ↔ s.rxfValid = true ∧ off.toNat + w ≤ s.rxfPlen.toNat := by
  simp [State.fieldReadable]

/-- A wire command's instruction means its command's two forms. -/
theorem exec_instr (c : WireCmd) (f : WireForm) (s : State) : exec (c.instr f) s = execWire c f s := by
  cases c <;> rfl

/-- Everything a wire command's request can do. -/
theorem sendRequest_cases {c : WireCmd} {p : List Byte} {s t : State} (h : sendRequest c p s = .next t) :
    p.length = reqLen s.params c ∧ buildFrame addrPc (cmdDst c) (cmdCode s.params c) p s = .next t := by
  unfold sendRequest at h
  split at h
  · exact ⟨by assumption, h⟩
  · cases h

/-- The kinds of instruction, by what they may write (spec/10_state.md R20, column "written by"). A wire command's request is
an ENCODE and its response a DECODE (spec/30_encoding.md R79). -/
inductive Kind
  | nop
  | reset
  | accumulator
  | scalar
  | output
  | parser
  deriving DecidableEq, Repr

def WireForm.kind : WireForm → Kind
  | .request _ => .output
  | .response _ => .parser

def kind : Instr → Kind
  | .nop => .nop
  | .ckClear => .accumulator
  | .ckAdd _ => .accumulator
  | .ckRead => .scalar
  | .cksum _ => .scalar
  | .ckVerify _ => .scalar
  | .encode _ _ _ _ => .output
  | .decode _ _ => .parser
  | .pack24 _ => .output
  | .pack16 _ => .output
  | .flagEnc _ => .output
  | .unpack24u _ => .scalar
  | .unpack24s _ => .scalar
  | .decS12 _ => .scalar
  | .flagDec _ => .scalar
  | .sreset => .reset
  | .getPosition f => WireForm.kind f
  | .moveAbs f => WireForm.kind f
  | .sync f => WireForm.kind f
  | .gotoDone f => WireForm.kind f
  | .abort f => WireForm.kind f
  | .setMaxPos f => WireForm.kind f
  | .setSlewLimit f => WireForm.kind f
  | .fanGet f => WireForm.kind f
  | .fanSet f => WireForm.kind f
  | .calGet f => WireForm.kind f
  | .calSet f => WireForm.kind f
  | .tempGet f => WireForm.kind f
  | .getVersion f => WireForm.kind f

@[simp] theorem kind_instr (c : WireCmd) (f : WireForm) : kind (c.instr f) = WireForm.kind f := by cases c <;> rfl

/-- Everything an instruction of a kind can do to a state. -/
inductive Effect (k : Kind) (s : State) : State → Prop
  | unchanged : k = .nop → Effect k s s
  | reset : k = .reset → Effect k s s.softReset.complete
  | accumulate (v : Byte) : k = .accumulator → Effect k s (s.setAcc v).complete
  | result (v : Word32) : k = .scalar → Effect k s (s.setResult v).complete
  | write (bs : List Byte) : k = .output → bs.length ≤ 3 ∨ bs.length ≤ s.params.maxFrame →
      Effect k s (s.writeOut bs).complete
  | protocolError (e : Status) : k = .parser → e ≠ .ok → e ≠ .contractError → Effect k s (s.raise true e)
  | parseContract : k = .parser → Effect k s (s.raise true .contractError)
  | accept (inp : List Byte) : k = .parser → inp.length ≤ s.params.maxFrame → s.params.h + 1 ≤ inp.length →
      Effect k s (s.acceptFrame inp).complete
  | contract : k = .accumulator ∨ k = .scalar ∨ k = .output → Effect k s (s.raise false .contractError)

theorem buildFrame_effect {src dst cmd : Byte} {p : List Byte} {s t : State}
    (h : buildFrame src dst cmd p s = .next t) : Effect .output s t := by
  rcases buildFrame_cases h with ⟨-, rfl⟩ | ⟨hp, rfl⟩
  · exact .contract (.inr (.inr rfl))
  · exact .write _ rfl (.inr (by rw [frame_length]; simp only [Params.maxFrame]; omega))

theorem parseFrame_effect {inp : List Byte} {e : Nat} {s t : State} (h : parseFrame inp e s = .next t) :
    Effect .parser s t := by
  rcases parseFrame_cases inp e s with ⟨-, h'⟩ | ⟨h1, -, h3, ⟨-, h'⟩ | ⟨-, -, h'⟩ | ⟨-, -, -, h'⟩ | ⟨-, -, -, -, h'⟩ |
    ⟨h4, -, -, -, h'⟩⟩ <;> rw [h'] at h <;> obtain rfl := (Host.Outcome.next.inj h).symm
  · exact .parseContract rfl
  · exact .protocolError _ rfl (by decide) (by decide)
  · exact .protocolError _ rfl (by decide) (by decide)
  · exact .protocolError _ rfl (by decide) (by decide)
  · exact .protocolError _ rfl (by decide) (by decide)
  · exact .accept _ rfl h3 (by omega)

theorem extractField_effect {off : Byte} {w : Nat} {v : Word32} {s t : State} (h : extractField off w v s = .next t) :
    Effect .scalar s t := by
  rcases extractField_cases h with ⟨-, rfl⟩ | ⟨-, rfl⟩
  · exact .result _ rfl
  · exact .contract (.inr (.inl rfl))

theorem execWire_effect {c : WireCmd} {f : WireForm} {s t : State} (h : execWire c f s = .next t) :
    Effect (WireForm.kind f) s t := by
  cases f with
  | request p => exact buildFrame_effect (sendRequest_cases h).2
  | response r => exact parseFrame_effect h

/-- An operation that checks a bound and then writes. -/
theorem checked_effect {k : Kind} {c : Prop} [Decidable c] {s u t : State} (hk : k = .accumulator ∨ k = .scalar ∨ k = .output)
    (hu : Effect k s u) (h : (if c then contractError s else .next u) = .next t) : Effect k s t := by
  split at h <;> obtain rfl := (Host.Outcome.next.inj h).symm
  · exact .contract hk
  · exact hu

/-- Everything `exec` can do when it answers a next state. -/
theorem exec_effect {i : Instr} {s t : State} (h : exec i s = .next t) : Effect (kind i) s t := by
  cases i with
  | nop => obtain rfl := Host.Outcome.next.inj h; exact .unchanged rfl
  | ckClear => obtain rfl := Host.Outcome.next.inj h; exact .accumulate _ rfl
  | ckAdd inp => exact checked_effect (.inl rfl) (.accumulate _ rfl) h
  | ckRead => obtain rfl := Host.Outcome.next.inj h; exact .result _ rfl
  | cksum inp => exact checked_effect (.inr (.inl rfl)) (.result _ rfl) h
  | ckVerify inp => exact checked_effect (.inr (.inl rfl)) (.result _ rfl) h
  | encode src dst cmd inp => exact buildFrame_effect h
  | decode inp e => exact parseFrame_effect h
  | pack24 v => obtain rfl := Host.Outcome.next.inj h; exact .write _ rfl (.inl (by simp [valBytes24]))
  | pack16 v => exact checked_effect (.inr (.inr rfl)) (.write _ rfl (.inl (by simp [valBytes16]))) h
  | flagEnc v => obtain rfl := Host.Outcome.next.inj h; exact .write _ rfl (.inl (by simp))
  | unpack24u off => exact extractField_effect h
  | unpack24s off => exact extractField_effect h
  | decS12 off => exact extractField_effect h
  | flagDec off => exact extractField_effect h
  | sreset => obtain rfl := Host.Outcome.next.inj h; exact .reset rfl
  | getPosition f => exact execWire_effect h
  | moveAbs f => exact execWire_effect h
  | sync f => exact execWire_effect h
  | gotoDone f => exact execWire_effect h
  | abort f => exact execWire_effect h
  | setMaxPos f => exact execWire_effect h
  | setSlewLimit f => exact execWire_effect h
  | fanGet f => exact execWire_effect h
  | fanSet f => exact execWire_effect h
  | calGet f => exact execWire_effect h
  | calSet f => exact execWire_effect h
  | tempGet f => exact execWire_effect h
  | getVersion f => exact execWire_effect h

/-- Everything `step` can do when it answers a next state. -/
theorem step_cases {s t : State} (h : step s = .next t) :
    (s.port = [] ∧ t = s) ∨
    (∃ rest, s.port = .hardwareReset :: rest ∧ t = (s.withPort rest).hardwareReset) ∨
    (∃ r rest i, s.port = .request r :: rest ∧ decode r = .ok i ∧ exec i (s.withPort rest) = .next t) := by
  unfold step State.fetch at h
  cases hp : s.port with
  | nil => rw [hp] at h; exact .inl ⟨rfl, (Host.Outcome.next.inj h).symm⟩
  | cons ev rest =>
    cases ev with
    | hardwareReset =>
      simp only [hp, State.consume, List.tail_cons] at h
      exact .inr (.inl ⟨rest, rfl, (Host.Outcome.next.inj h).symm⟩)
    | request r =>
      simp only [hp, State.consume, List.tail_cons] at h
      cases hd : decode r with
      | error e => simp [hd] at h
      | ok i => simp only [hd] at h; exact .inr (.inr ⟨r, rest, i, rfl, hd, h⟩)

end Sys2Proof.Machine
end

