-- ==== Sys2Proof/Laws/PerInstr.lean ====
section
/-! SUPPORT. Families of statements made per instruction (LAWS.json): one lemma for each constructor. -/

namespace Sys2Proof.Laws.RecordSize

open Sys2Proof

/-- A well-formed instruction's words fit the record: ten bytes of fields and at most 255 bytes of `IN`
(spec/30_encoding.md R60). -/
def Statement (i : Instr) : Prop := i.wellFormed = true → 10 ≤ (encode i).length ∧ (encode i).length ≤ 265

theorem of_fields {f : RecordFields} (h : inputFits f.inp = true) :
    10 ≤ (recordBytes f).length ∧ (recordBytes f).length ≤ 265 := by
  simp only [inputFits, decide_eq_true_eq] at h
  rw [recordBytes_length]; omega

theorem of_wire (c : WireCmd) (n : Nat) {f : WireForm} (h : c.formOk f = true) :
    10 ≤ (encodeWire n f).length ∧ (encodeWire n f).length ≤ 265 := by
  cases f with
  | request p =>
    have hp := reqLenClass_le c p.length (by simpa [WireCmd.formOk] using h)
    exact of_fields (by simp only [inputFits, decide_eq_true_eq]; omega)
  | response r => exact of_fields h

theorem nop : Statement .nop := fun _ => of_fields rfl
theorem ckClear : Statement .ckClear := fun _ => of_fields rfl
theorem ckAdd (inp : List Byte) : Statement (.ckAdd inp) := fun h => of_fields h
theorem ckRead : Statement .ckRead := fun _ => of_fields rfl
theorem cksum (inp : List Byte) : Statement (.cksum inp) := fun h => of_fields h
theorem ckVerify (inp : List Byte) : Statement (.ckVerify inp) := fun h => of_fields h
theorem encode (src dst cmd : Byte) (inp : List Byte) : Statement (.encode src dst cmd inp) := fun h => of_fields h
theorem decode (inp : List Byte) (explen : Byte) : Statement (.decode inp explen) := fun h => of_fields h
theorem pack24 (val : Word24) : Statement (.pack24 val) := fun _ => of_fields rfl
theorem pack16 (val : Word24) : Statement (.pack16 val) := fun _ => of_fields rfl
theorem flagEnc (val : Word24) : Statement (.flagEnc val) := fun _ => of_fields rfl
theorem unpack24u (off : Byte) : Statement (.unpack24u off) := fun _ => of_fields rfl
theorem unpack24s (off : Byte) : Statement (.unpack24s off) := fun _ => of_fields rfl
theorem decS12 (off : Byte) : Statement (.decS12 off) := fun _ => of_fields rfl
theorem flagDec (off : Byte) : Statement (.flagDec off) := fun _ => of_fields rfl
theorem sreset : Statement .sreset := fun _ => of_fields rfl
theorem getPosition (f : WireForm) : Statement (.getPosition f) := of_wire .getPosition 0
theorem moveAbs (f : WireForm) : Statement (.moveAbs f) := of_wire .moveAbs 1
theorem sync (f : WireForm) : Statement (.sync f) := of_wire .sync 2
theorem gotoDone (f : WireForm) : Statement (.gotoDone f) := of_wire .gotoDone 3
theorem abort (f : WireForm) : Statement (.abort f) := of_wire .abort 4
theorem setMaxPos (f : WireForm) : Statement (.setMaxPos f) := of_wire .setMaxPos 5
theorem setSlewLimit (f : WireForm) : Statement (.setSlewLimit f) := of_wire .setSlewLimit 6
theorem fanGet (f : WireForm) : Statement (.fanGet f) := of_wire .fanGet 7
theorem fanSet (f : WireForm) : Statement (.fanSet f) := of_wire .fanSet 8
theorem calGet (f : WireForm) : Statement (.calGet f) := of_wire .calGet 9
theorem calSet (f : WireForm) : Statement (.calSet f) := of_wire .calSet 10
theorem tempGet (f : WireForm) : Statement (.tempGet f) := of_wire .tempGet 11
theorem getVersion (f : WireForm) : Statement (.getVersion f) := of_wire .getVersion 12

end Sys2Proof.Laws.RecordSize
end

