-- ==== Sys2Proof/Laws/Run.lean ====
section
/-! SUPPORT. What a run does step by step, and with a program the host has issued. -/

namespace Sys2Proof.Machine

open Sys2Proof

/-- A wire command's error, whichever the command. -/
@[simp] theorem errorCode_instr (s : State) (c : WireCmd) (f : WireForm) : errorCode s (c.instr f) = wireErrorCode s c f := by
  cases c <;> rfl

/-- The error that applies does not depend on `STATUS`. -/
@[simp] theorem errorCode_status (s : State) (i : Instr) (x : BitVec 3) : errorCode { s with status := x } i = errorCode s i := by
  cases i <;> rfl

@[simp] theorem run_zero (s : State) : run 0 s = .next s := rfl

theorem core_run_next (M : Host.Core) (k : Nat) {s t : M.State} (h : M.step s = .next t) :
    M.run (k + 1) s = M.run k t := by
  simp only [Host.Core.run, h]

theorem core_run_refused (M : Host.Core) (k : Nat) {s : M.State} {r : M.Refusal} (h : M.step s = .refused r) :
    M.run (k + 1) s = .refused r := by
  simp only [Host.Core.run, h]

theorem run_next (k : Nat) {s t : State} (h : step s = .next t) : run (k + 1) s = run k t :=
  core_run_next Sys2Proof.core k h

theorem run_refused (k : Nat) {s : State} {r : Refusal} (h : step s = .refused r) : run (k + 1) s = .refused r :=
  core_run_refused Sys2Proof.core k h

/-- What the first step of a run that ends must have done. -/
theorem run_succ_cases {k : Nat} {s t : State} (h : run (k + 1) s = .next t) : ∃ u, step s = .next u ∧ run k u = .next t := by
  cases hs : step s with
  | next u => exact ⟨u, rfl, by rw [← run_next k hs, h]⟩
  | fault r => cases r
  | refused r => rw [run_refused k hs] at h; cases h

@[simp] theorem issueAll_nil (s : State) : s.issueAll [] = s := rfl

/-- The first instruction of an issued program runs in the state with the rest issued. -/
theorem step_issueAll {i : Instr} (hd : decode (encode i) = .ok i) (is : List Instr) (s : State) :
    step (s.issueAll (i :: is)) = exec i (s.issueAll is) := by
  simp [step, State.fetch, State.issueAll, State.withPort, State.consume, hd]

theorem run_issueAll {i : Instr} (hd : decode (encode i) = .ok i) (is : List Instr) (k : Nat) {s t : State}
    (h : exec i (s.issueAll is) = .next t) : run (k + 1) (s.issueAll (i :: is)) = run k t :=
  run_next k (by rw [step_issueAll hd, h])

theorem run_issueAll_cases {i : Instr} (hd : decode (encode i) = .ok i) {is : List Instr} {k : Nat} {s t : State}
    (h : run (k + 1) (s.issueAll (i :: is)) = .next t) :
    ∃ u, exec i (s.issueAll is) = .next u ∧ run k u = .next t := by
  obtain ⟨u, h1, h2⟩ := run_succ_cases h
  exact ⟨u, by rwa [step_issueAll hd] at h1, h2⟩

end Sys2Proof.Machine
end

