-- ==== Sys2Proof/Tests/Slice0.lean ====
section
/-! SUPPORT. Tests of the model and witnesses of its statements' hypotheses. Expected values are the spec's: the examples of its
rules and the vectors of spec/95_test_vectors.md, whose command codes other than `0x01` are illustrative. -/

namespace Sys2Proof.Tests

open Sys2Proof Sys2Proof.Machine

/-! ### Helpers -/

/-- The parameters of spec/95_test_vectors.md, in either layout; codes the vectors do not use are chosen freely. -/
def testParams (lengthByte : Bool) : Params where
  lengthByte := lengthByte
  maxPayload := 16
  cmdMoveAbs := 0x02#8
  cmdSync := 0x04#8
  cmdGotoDone := 0x03#8
  cmdAbort := 0x06#8
  cmdSetMaxPos := 0x05#8
  cmdSetSlewLimit := 0x07#8
  cmdFanGet := 0x98#8
  cmdFanSet := 0x99#8
  cmdCalGet := 0x0A#8
  cmdCalSet := 0x0B#8
  cmdTempGet := 0x99#8
  cmdGetVersion := 0xFE#8
  lenSetMaxPos := .two
  lenSetSlewLimit := .one
  ackPayloadLen := 0
  versionPayloadLen := 2
  posSignedGetPosition := false
  posSignedMoveAbs := true
  posSignedSync := false
  s12NibbleFirst := false

theorem testParams_legal (lengthByte : Bool) : (testParams lengthByte).Legal := by
  cases lengthByte <;> exact ⟨by decide, by decide, by decide, by decide, by decide⟩

/-- The reset state with the test parameters. -/
def start (lengthByte : Bool) : State := State.atReset (testParams lengthByte)

/-- A state in which DECODE has accepted a frame with this payload. -/
def parsed (payload : List Byte) : State :=
  { start true with
    rxfValid := true
    rxfSrc := 0x12#8
    rxfDst := 0x20#8
    rxfCmd := 0x99#8
    rxfPlen := BitVec.ofNat 8 payload.length
    rxfPayload := padTo 16 payload }

def nextOf : Host.Outcome State Fault Refusal → Option State
  | .next t => some t
  | .fault _ => none
  | .refused _ => none

/-- The state after an instruction (the state before it, where it has none). -/
def after (i : Instr) (s : State) : State := (nextOf (exec i s)).getD s

/-- The state after a step. -/
def afterStep (s : State) : State := (nextOf (step s)).getD s

/-- The state after a run. -/
def afterRun (k : Nat) (s : State) : State := (nextOf (run k s)).getD s

/-- The position reply of E2, with the length byte. -/
def reply : List Byte := [0x3B#8, 0x06#8, 0x12#8, 0x20#8, 0x01#8, 0x64#8, 0x00#8, 0x00#8, 0x63#8]

/-! ### Ill-formed terms -/

theorem test_wellFormed_refuses_long_input :
    [Instr.ckAdd, .cksum, .ckVerify, .encode 0#8 0#8 0#8, fun inp => .decode inp 9#8].all
      (fun f => (f (List.replicate 255 0#8)).wellFormed && !(f (List.replicate 256 0#8)).wellFormed) = true := by
  decide +kernel

theorem test_wellFormed_refuses_request_lengths :
    [Instr.getPosition, .gotoDone, .abort, .fanGet, .calGet, .tempGet, .getVersion].all
      (fun f => (f (.request [])).wellFormed && !(f (.request [0#8])).wellFormed) &&
    [Instr.moveAbs, .sync].all
      (fun f => (f (.request [0#8, 0#8, 0#8])).wellFormed && !(f (.request [0#8, 0#8])).wellFormed) &&
    [Instr.fanSet, .calSet].all (fun f => (f (.request [0#8])).wellFormed && !(f (.request [])).wellFormed) &&
    [Instr.setMaxPos, .setSlewLimit].all
      (fun f => (f (.request [0#8, 0#8])).wellFormed && !(f (.request [0#8, 0#8, 0#8])).wellFormed) = true := by decide

theorem test_wellFormed_refuses_long_response :
    [Instr.getPosition, .moveAbs, .sync, .gotoDone, .abort, .setMaxPos, .setSlewLimit, .fanGet, .fanSet, .calGet, .calSet,
      .tempGet, .getVersion].all
      (fun f => (f (.response (List.replicate 255 0#8))).wellFormed &&
        !(f (.response (List.replicate 256 0#8))).wellFormed) = true := by decide +kernel

/-! ### Words written out (OP values of R61; layout and tags of log entries 1 and 2) -/

theorem test_decode_without_operands :
    decode [0x00#8] = .ok .nop ∧ decode [0x01#8] = .ok .ckClear ∧ decode [0x03#8] = .ok .ckRead ∧
    decode [0x0F#8] = .ok .sreset := by decide

theorem test_decode_with_input :
    decode [0x02#8, 0#8, 0#8, 0#8, 2#8, 0#8, 0#8, 0#8, 0#8, 0#8, 0x03#8, 0x20#8, 0x12#8] = .ok (.ckAdd [0x03#8, 0x20#8]) ∧
    decode [0x04#8, 0#8, 0#8, 0#8, 1#8, 0#8, 0#8, 0#8, 0#8, 0#8, 0x01#8] = .ok (.cksum [0x01#8]) ∧
    decode [0x05#8, 0#8, 0#8, 0#8, 1#8, 0#8, 0#8, 0#8, 0#8, 0#8, 0x80#8] = .ok (.ckVerify [0x80#8]) ∧
    decode [0x06#8, 0x20#8, 0x12#8, 0x02#8, 1#8, 0#8, 0#8, 0#8, 0#8, 0#8, 0xE8#8] =
      .ok (.encode 0x20#8 0x12#8 0x02#8 [0xE8#8]) ∧
    decode [0x07#8, 0#8, 0#8, 0#8, 2#8, 9#8, 0#8, 0#8, 0#8, 0#8, 0x3B#8, 0x06#8] = .ok (.decode [0x3B#8, 0x06#8] 9#8) := by
  decide

theorem test_decode_with_value_or_offset :
    decode [0x08#8, 0#8, 0#8, 0#8, 0#8, 0#8, 0x56#8, 0x34#8, 0x12#8, 0#8] = .ok (.pack24 0x123456#24) ∧
    decode [0x09#8, 0#8, 0#8, 0#8, 0#8, 0#8, 0xF4#8, 0x01#8, 0x00#8, 0#8] = .ok (.pack16 0x0001F4#24) ∧
    decode [0x0A#8, 0#8, 0#8, 0#8, 0#8, 0#8, 0x00#8, 0x00#8, 0x80#8, 0#8] = .ok (.flagEnc 0x800000#24) ∧
    decode [0x0B#8, 0#8, 0#8, 0#8, 0#8, 0#8, 0#8, 0#8, 0#8, 1#8] = .ok (.unpack24u 1#8) ∧
    decode [0x0C#8, 0#8, 0#8, 0#8, 0#8, 0#8, 0#8, 0#8, 0#8, 0xFF#8] = .ok (.unpack24s 0xFF#8) ∧
    decode [0x0D#8, 0#8, 0#8, 0#8, 0#8, 0#8, 0#8, 0#8, 0#8, 2#8] = .ok (.decS12 2#8) ∧
    decode [0x0E#8, 0#8, 0#8, 0#8, 0#8, 0#8, 0#8, 0#8, 0#8, 3#8] = .ok (.flagDec 3#8) := by decide

theorem test_decode_wire_requests :
    decode [0x10#8] = .ok (.getPosition (.request [])) ∧
    decode [0x11#8, 0#8, 0#8, 0#8, 3#8, 0#8, 0#8, 0#8, 0#8, 0#8, 1#8, 2#8, 3#8] = .ok (.moveAbs (.request [1#8, 2#8, 3#8])) ∧
    decode [0x12#8, 0#8, 0#8, 0#8, 3#8] = .ok (.sync (.request [0#8, 0#8, 0#8])) ∧
    decode [0x13#8] = .ok (.gotoDone (.request [])) ∧
    decode [0x14#8] = .ok (.abort (.request [])) ∧
    decode [0x15#8, 0#8, 0#8, 0#8, 2#8, 0#8, 0#8, 0#8, 0#8, 0#8, 0xF4#8, 1#8] = .ok (.setMaxPos (.request [0xF4#8, 1#8])) ∧
    decode [0x16#8, 0#8, 0#8, 0#8, 1#8, 0#8, 0#8, 0#8, 0#8, 0#8, 9#8] = .ok (.setSlewLimit (.request [9#8])) ∧
    decode [0x17#8] = .ok (.fanGet (.request [])) ∧
    decode [0x18#8, 0#8, 0#8, 0#8, 1#8, 0#8, 0#8, 0#8, 0#8, 0#8, 1#8] = .ok (.fanSet (.request [1#8])) ∧
    decode [0x19#8] = .ok (.calGet (.request [])) ∧
    decode [0x1A#8, 0#8, 0#8, 0#8, 1#8] = .ok (.calSet (.request [0#8])) ∧
    decode [0x1B#8] = .ok (.tempGet (.request [])) ∧
    decode [0x1C#8] = .ok (.getVersion (.request [])) := by decide

theorem test_decode_wire_responses :
    decode [0x20#8, 0#8, 0#8, 0#8, 1#8, 0#8, 0#8, 0#8, 0#8, 0#8, 0x3B#8] = .ok (.getPosition (.response [0x3B#8])) ∧
    decode [0x2C#8] = .ok (.getVersion (.response [])) := by decide

theorem test_decode_rejects_by_name :
    decode [0x11#8] = .error .payloadLength ∧ decode [0x1D#8] = .error .noSuchCommand ∧
    decode [0x2F#8] = .error .noSuchCommand ∧ decode [0x30#8] = .error .reservedFormat ∧
    decode [0xF0#8] = .error .reservedFormat := by decide

theorem test_table_words :
    decodeTableWord 8 0x0 = some .nop ∧ decodeTableWord 8 0x1 = some .ckClear ∧ decodeTableWord 8 0x8 = some (.pack24 0#24) ∧
    decodeTableWord 8 0xF = some .sreset := by decide

/-- The very next step runs the word (FLAG_ENC of `VAL = 0`, R124). -/
theorem test_withFetchWord : (afterStep ((start true).withFetchWord 8 0xA)).olen = 1#8 := by decide

/-! ### Control and checksum operations (examples of R103 to R110; 95_test_vectors.md section 2.7) -/

theorem test_nop_keeps_status : after .nop { start true with status := 1#3 } = { start true with status := 1#3 } := by decide

theorem test_ckClear : (after .ckClear { start true with acc := 0x5A#8 }).acc = 0x00#8 := by decide

theorem test_ckAdd : (after (.ckAdd [0x03#8, 0x20#8, 0x12#8, 0x01#8]) (start true)).acc = 0x36#8 := by decide

theorem test_ckAdd_contract :
    after (.ckAdd (List.replicate 23 1#8)) (start true) = { start true with status := 4#3, fault := true } := by decide

theorem test_ckRead : (after .ckRead { start true with acc := 0x36#8 }).result = 0x000000CA#32 := by decide

theorem test_ckRead_zero : (after .ckRead (start true)).result = 0#32 := by decide

theorem test_cksum :
    (after (.cksum [0x06#8, 0x12#8, 0x20#8, 0x01#8, 0x64#8, 0x00#8, 0x00#8]) (start true)).result = 0x63#32 := by decide

theorem test_cksum_after_fault :
    let t := after (.cksum [0x01#8]) { start true with fault := true }
    t.status = 0#3 ∧ t.result = 0xFF#32 ∧ t.fault = true := by decide

theorem test_ckVerify : (after (.ckVerify [0x03#8, 0x20#8, 0x12#8, 0x01#8, 0xCA#8]) (start true)).result = 1#32 := by decide

theorem test_ckVerify_bad :
    let t := after (.ckVerify [0x03#8, 0x20#8, 0x12#8, 0x01#8, 0xCB#8]) { start true with result := 7#32 }
    t.result = 0#32 ∧ t.status = 0#3 := by decide

theorem test_sreset :
    after .sreset { parsed [1#8] with acc := 0x36#8, fault := true, status := 4#3, result := 5#32, olen := 1#8 } =
      { start true with fault := true } := by decide

theorem test_hardware_reset :
    afterStep { parsed [1#8] with fault := true, acc := 3#8, port := [.hardwareReset] } = start true := by decide

/-! ### Builder (E1, E3; 95_test_vectors.md section 2.4) -/

theorem test_encode_both_layouts :
    (after (.encode 0x20#8 0x12#8 0x02#8 [0xE8#8, 0x03#8, 0x00#8]) (start true)).output =
      [0x3B#8, 0x06#8, 0x20#8, 0x12#8, 0x02#8, 0xE8#8, 0x03#8, 0x00#8, 0xDB#8] ∧
    (after (.encode 0x20#8 0x12#8 0x02#8 [0xE8#8, 0x03#8, 0x00#8]) (start false)).output =
      [0x3B#8, 0x20#8, 0x12#8, 0x02#8, 0xE8#8, 0x03#8, 0x00#8, 0xE1#8] := by decide

theorem test_encode_zero_checksum :
    let t := after (.encode 0x20#8 0x12#8 0x00#8 [0xCA#8]) { start true with obuf := List.replicate 22 0xFF#8 }
    t.obuf = [0x3B#8, 0x04#8, 0x20#8, 0x12#8, 0x00#8, 0xCA#8, 0x00#8] ++ List.replicate 15 0x00#8 ∧ t.olen = 7#8 := by decide

theorem test_pack24 : (after (.pack24 0xFFFC18#24) (start true)).output = [0x18#8, 0xFC#8, 0xFF#8] := by decide

theorem test_pack16 : (after (.pack16 0x01F4#24) (start true)).output = [0xF4#8, 0x01#8] := by decide

theorem test_pack16_contract :
    after (.pack16 0x10000#24) (start true) = { start true with status := 4#3, fault := true } := by decide

theorem test_flagEnc :
    (after (.flagEnc 0x800000#24) (start true)).output = [0x01#8] ∧
    (after (.flagEnc 0#24) (start true)).output = [0x00#8] := by decide

/-! ### Parser (E2; 95_test_vectors.md section 2.5) -/

theorem test_decode_accepts :
    after (.decode [0x3B#8, 0x07#8, 0x12#8, 0x20#8, 0x99#8, 0x90#8, 0x01#8, 0x70#8, 0x0F#8, 0x1E#8] 10#8) (start true) =
      parsed [0x90#8, 0x01#8, 0x70#8, 0x0F#8] := by decide

theorem test_decode_rejections :
    let s := parsed [1#8]
    let code := fun (inp : List Byte) (e : Byte) => (after (.decode inp e) s).status
    code (reply.set 0 0x3C#8 |>.set 8 0x00#8) 9#8 = 3#3 ∧ code (reply.take 8 |>.set 0 0x3C#8) 9#8 = 2#3 ∧
    code (reply.set 8 0x64#8) 9#8 = 1#3 ∧ code (reply.set 1 0x07#8 |>.set 8 0x62#8) 9#8 = 2#3 ∧
    code (reply.set 1 0x07#8) 9#8 = 1#3 ∧ code reply 5#8 = 4#3 ∧ code reply 23#8 = 4#3 ∧
    (after (.decode (reply.set 8 0x64#8) 9#8) s).rxfValid = false ∧ (after (.decode reply 5#8) s).rxfValid = true := by decide

theorem test_unpack24u : (after (.unpack24u 1#8) (parsed [0x90#8, 0x01#8, 0x70#8, 0x0F#8])).result = 0x000F7001#32 := by decide

theorem test_unpack24u_past_payload :
    let s := parsed [0x64#8, 0x00#8, 0x00#8]
    after (.unpack24u 1#8) s = { s with status := 4#3, fault := true } := by decide

theorem test_unpack24s :
    (after (.unpack24s 0#8) (parsed [0x00#8, 0x00#8, 0x80#8])).result = 0xFF800000#32 ∧
    (after (.unpack24s 0#8) (parsed [0xFF#8, 0xFF#8, 0x7F#8])).result = 0x007FFFFF#32 := by decide

theorem test_decS12 :
    (after (.decS12 2#8) (parsed [0x90#8, 0x01#8, 0x70#8, 0x0F#8])).result = 0xFFFFFF70#32 ∧
    (after (.decS12 0#8) (parsed [0x90#8, 0xF1#8])).result = 0x00000190#32 := by decide

theorem test_decS12_nibble_first :
    let s := parsed [0x0F#8, 0x70#8]
    (after (.decS12 0#8) { s with params := { s.params with s12NibbleFirst := true } }).result = 0xFFFFFF70#32 := by decide

theorem test_flagDec :
    (after (.flagDec 0#8) (parsed [0x80#8])).result = 1#32 ∧ (after (.flagDec 0#8) (parsed [0x00#8])).result = 0#32 := by decide

theorem test_flagDec_after_ack : (after (.flagDec 0#8) (parsed [])).status = 4#3 := by decide

/-! ### Wire commands (95_test_vectors.md section 2.6) -/

theorem test_getPosition :
    (after (.getPosition (.request [])) (start true)).output = [0x3B#8, 0x03#8, 0x20#8, 0x12#8, 0x01#8, 0xCA#8] ∧
    (after (.unpack24u 0#8) (after (.getPosition (.response reply)) (start true))).result = 100#32 := by decide

theorem test_moveAbs :
    (after (.moveAbs (.request [0xE8#8, 0x03#8, 0x00#8])) (start true)).output =
      [0x3B#8, 0x06#8, 0x20#8, 0x12#8, 0x02#8, 0xE8#8, 0x03#8, 0x00#8, 0xDB#8] ∧
    (after (.moveAbs (.response [0x3B#8, 0x03#8, 0x12#8, 0x20#8, 0x02#8, 0xC9#8])) (start true)).rxfValid = true := by decide

theorem test_moveAbs_wrong_length : exec (.moveAbs (.request [0xE8#8])) (start true) = .refused .requestPayloadLength := rfl

theorem test_sync :
    (after (.sync (.request [0x00#8, 0x00#8, 0x00#8])) (start false)).output =
      [0x3B#8, 0x20#8, 0x12#8, 0x04#8, 0x00#8, 0x00#8, 0x00#8, 0xCA#8] := by decide

theorem test_gotoDone :
    (after (.gotoDone (.request [])) (start true)).output = [0x3B#8, 0x03#8, 0x20#8, 0x12#8, 0x03#8, 0xC8#8] ∧
    (after (.flagDec 0#8) (after (.gotoDone (.response [0x3B#8, 0x04#8, 0x12#8, 0x20#8, 0x03#8, 0x01#8, 0xC6#8]))
      (start true))).result = 1#32 := by decide

/-- `k = (0xCB - c) mod 256` (R176), for `c = 0x06`. -/
theorem test_abort :
    (after (.abort (.request [])) (start true)).output = [0x3B#8, 0x03#8, 0x20#8, 0x12#8, 0x06#8, 0xC5#8] := by decide

theorem test_setMaxPos_both_lengths :
    let s := start true
    (after (.setMaxPos (.request [0xF4#8, 0x01#8])) s).output =
      [0x3B#8, 0x05#8, 0x20#8, 0x12#8, 0x05#8, 0xF4#8, 0x01#8, 0xCF#8] ∧
    (after (.setMaxPos (.request [0x7F#8])) { s with params := { s.params with lenSetMaxPos := .one } }).output =
      [0x3B#8, 0x04#8, 0x20#8, 0x12#8, 0x05#8, 0x7F#8, 0x46#8] := by decide

/-- The frame of R177 with another code, `c = 0x07`: `k = -(0x36 + c + v)`. -/
theorem test_setSlewLimit :
    (after (.setSlewLimit (.request [0x7F#8])) (start true)).output =
      [0x3B#8, 0x04#8, 0x20#8, 0x12#8, 0x07#8, 0x7F#8, 0x44#8] := by decide

/-- `k = (0xCA - c) mod 256` (R179), for `c = 0x98`. -/
theorem test_fanGet :
    (after (.fanGet (.request [])) (start true)).output = [0x3B#8, 0x03#8, 0x20#8, 0x13#8, 0x98#8, 0x32#8] := by decide

theorem test_fanSet :
    (after (.fanSet (.request [0x01#8])) (start true)).output = [0x3B#8, 0x04#8, 0x20#8, 0x13#8, 0x99#8, 0x01#8, 0x2F#8] ∧
    (after (.fanSet (.response [0x3B#8, 0x13#8, 0x20#8, 0x99#8, 0x01#8, 0x33#8])) (start false)).rxfSrc = 0x13#8 := by decide

/-- The frames of R181 and R182 for `c = 0x0A` and `c = 0x0B`. -/
theorem test_calGet_calSet :
    (after (.calGet (.request [])) (start true)).output = [0x3B#8, 0x03#8, 0x20#8, 0x12#8, 0x0A#8, 0xC1#8] ∧
    (after (.calSet (.request [0x01#8])) (start true)).output =
      [0x3B#8, 0x04#8, 0x20#8, 0x12#8, 0x0B#8, 0x01#8, 0xBE#8] := by decide

theorem test_tempGet :
    let t := after (.tempGet (.response [0x3B#8, 0x12#8, 0x20#8, 0x99#8, 0x90#8, 0x01#8, 0x70#8, 0x0F#8, 0x25#8])) (start false)
    (after (.tempGet (.request [])) (start false)).output = [0x3B#8, 0x20#8, 0x12#8, 0x99#8, 0x35#8] ∧
    (responseReaders t.params .tempGet).map (fun i => (after i t).result) = [400#32, 0xFFFFFF70#32] := by decide

/-- The frames of R184 for `c = 0xFE` and two version bytes. -/
theorem test_getVersion :
    (after (.getVersion (.request [])) (start true)).output = [0x3B#8, 0x03#8, 0x20#8, 0x12#8, 0xFE#8, 0xCD#8] ∧
    (after (.getVersion (.response [0x3B#8, 0x05#8, 0x12#8, 0x20#8, 0xFE#8, 0x01#8, 0x02#8, 0xC8#8])) (start true)).rxfPayload =
      [0x01#8, 0x02#8] ++ List.replicate 14 0x00#8 := by decide

/-! ### Witnesses: concrete states and operands that meet the hypotheses of each statement, clause by clause -/

/-- A state that meets the invariant and in which every register but `ACC` and `FAULT` differs from reset. -/
def busy : State := { parsed [0x64#8, 0x00#8, 0x00#8] with
  obuf := [0x01#8] ++ List.replicate 21 0x00#8
  olen := 1#8
  result := 5#32
  status := 1#3 }

theorem busy_inv : busy.Inv :=
  ⟨testParams_legal true, by decide, by decide, by decide, by decide, by decide, by decide, by decide, by decide⟩

theorem witness_OpValuesSelectTheirOperations :
    ([] : List Byte).length ≤ 255 ∧ (List.replicate 255 0xFF#8).length ≤ 255 := by decide +kernel

theorem witness_UnreadRequestFieldsHaveNoEffect :
    let agree := fun r r' => recordFormat r = 0 ∧ recordFormat r' = 0 ∧ recordOp r = recordOp r' ∧ r ≠ r'
    let sameInput := fun r r' : List Byte => recordInlen r = recordInlen r' ∧
      ∀ k, k < (recordInlen r).toNat → recordByte r (10 + k) = recordByte r' (10 + k)
    let a := fun op src x : Byte => [op, src, 2#8, 3#8, 1#8, 5#8, 6#8, 7#8, 8#8, 9#8, 0x3B#8, x]
    (agree (a 0x0F#8 0#8 0#8) [0x0F#8] ∧ recordOp (a 0x0F#8 0#8 0#8) ∈ [0x0, 0x1, 0x3, 0xF]) ∧
    (agree (a 0x02#8 0#8 0#8) (a 0x02#8 1#8 1#8) ∧ sameInput (a 0x02#8 0#8 0#8) (a 0x02#8 1#8 1#8) ∧
      recordOp (a 0x02#8 0#8 0#8) ∈ [0x2, 0x4, 0x5]) ∧
    (agree (a 0x06#8 1#8 0#8) (a 0x06#8 1#8 1#8) ∧ sameInput (a 0x06#8 1#8 0#8) (a 0x06#8 1#8 1#8) ∧
      recordOp (a 0x06#8 1#8 0#8) = 0x6 ∧ recordSrc (a 0x06#8 1#8 0#8) = recordSrc (a 0x06#8 1#8 1#8) ∧
      recordDst (a 0x06#8 1#8 0#8) = recordDst (a 0x06#8 1#8 1#8) ∧
      recordCmd (a 0x06#8 1#8 0#8) = recordCmd (a 0x06#8 1#8 1#8)) ∧
    (agree (a 0x07#8 1#8 0#8) (a 0x07#8 2#8 0#8) ∧ sameInput (a 0x07#8 1#8 0#8) (a 0x07#8 2#8 0#8) ∧
      recordOp (a 0x07#8 1#8 0#8) = 0x7 ∧ recordExplen (a 0x07#8 1#8 0#8) = recordExplen (a 0x07#8 2#8 0#8)) ∧
    (agree (a 0x08#8 1#8 0#8) (a 0x08#8 2#8 0#8) ∧ recordOp (a 0x08#8 1#8 0#8) ∈ [0x8, 0x9, 0xA] ∧
      recordVal (a 0x08#8 1#8 0#8) = recordVal (a 0x08#8 2#8 0#8)) ∧
    (agree (a 0x0E#8 1#8 0#8) (a 0x0E#8 2#8 0#8) ∧ recordOp (a 0x0E#8 1#8 0#8) ∈ [0xB, 0xC, 0xD, 0xE] ∧
      recordOff (a 0x0E#8 1#8 0#8) = recordOff (a 0x0E#8 2#8 0#8)) := by decide

theorem witness_DecodeOfEncodeIsTheInstruction :
    (Instr.ckAdd []).wellFormed = true ∧ (Instr.encode 0xFF#8 0x3B#8 0x01#8 (List.replicate 255 0xFF#8)).wellFormed = true ∧
    (Instr.setMaxPos (.request [0xFF#8])).wellFormed = true ∧ (Instr.setMaxPos (.request [0xFF#8, 0#8])).wellFormed = true ∧
    (Instr.fanGet (.response [])).wellFormed = true := by decide +kernel

theorem witness_DecodedInstructionsAreWellFormed :
    decode [0x18#8, 0#8, 0#8, 0#8, 1#8] = .ok (.fanSet (.request [0#8])) ∧ decode [] = .ok .nop := by decide

theorem witness_EveryOpValueIsAnOperationThatCompletes : recordFormat [] = 0 ∧ recordFormat [0x0F#8] = 0 := by decide

theorem witness_StepRunsTheDecodedInstruction :
    ((start true).issue [0x0F#8]).port = .request [0x0F#8] :: [] ∧ decode [0x0F#8] = .ok .sreset ∧
    ((start true).issue [0x30#8]).port = .request [0x30#8] :: [] ∧ decode [0x30#8] = .error .reservedFormat ∧
    (start true).port = [] := by decide

/-- A faulted state whose next event is a hardware reset. -/
def faulted : State := { busy with fault := true, status := 4#3, port := [.hardwareReset] }

theorem witness_HardwareResetAloneClearsFault :
    faulted.port = .hardwareReset :: [] ∧ step faulted = .next (afterStep faulted) ∧ faulted.fault = true ∧
    (afterStep faulted).fault = false := ⟨rfl, rfl, rfl, rfl⟩

theorem witness_ParametersAreFixed : step faulted = .next (afterStep faulted) ∧ (testParams true).Legal :=
  ⟨rfl, testParams_legal true⟩

theorem witness_StepKeepsTheInvariant :
    busy.Inv ∧ step busy = .next (afterStep busy) ∧
    ∃ s : State, s.Inv ∧ s.port = [.request [0x01#8]] ∧ step s = .next (afterStep s) :=
  ⟨busy_inv, rfl, { busy with port := [.request [0x01#8]] },
    ⟨busy_inv.legal, busy_inv.obuf_length, busy_inv.olen_le, busy_inv.obuf_zero, busy_inv.payload_length, busy_inv.plen_le,
      busy_inv.payload_zero, busy_inv.status_le, busy_inv.contract_fault⟩, rfl, rfl⟩

/-- Both clauses of CK_ADD, CKSUM and CK_VERIFY where they meet, `MAX_FRAME` being 22. -/
theorem witness_CkAddAddsTheBytes :
    (List.replicate 22 1#8).length ≤ (start true).params.maxFrame ∧
    (List.replicate 23 1#8).length > (start true).params.maxFrame := by decide

theorem witness_CksumComputesTheChecksum :
    ([] : List Byte).length ≤ (start false).params.maxFrame ∧
    (List.replicate 22 1#8).length > (start false).params.maxFrame := by decide

theorem witness_CkVerifyChecksTheSum :
    (List.replicate 21 1#8).length ≤ (start false).params.maxFrame ∧
    (List.replicate 22 1#8).length > (start false).params.maxFrame := by decide

theorem witness_ChecksumDetectsEverySingleBitError :
    let bs := [0x03#8, 0x20#8, 0x12#8, 0x01#8, 0xCA#8]
    (0 < bs.length ∧ 0 < 8) ∧ (4 < bs.length ∧ 7 < 8) ∧ bs.length ≤ (start true).params.maxFrame ∧
    (bs.map BitVec.toNat).sum % 256 = 0 := by decide

theorem witness_StreamingGivesTheChecksumOfTheConcatenation :
    (start true).params.Legal ∧ ∀ p ∈ [List.replicate 22 0xFF#8, []], p.length ≤ (start true).params.maxFrame :=
  ⟨testParams_legal true, by decide⟩

theorem witness_StreamingSurvivesOtherOperations :
    let between : List Instr := [.ckAdd [1#8], .fanGet (.request []), .ckAdd (List.replicate 23 1#8), .cksum [2#8]]
    let program := [Instr.ckClear] ++ between ++ [Instr.ckRead]
    (∀ i ∈ between, i.wellFormed = true ∧ i ≠ .ckClear ∧ i ≠ .sreset) ∧
    run program.length ((start true).issueAll program) = .next (afterRun program.length ((start true).issueAll program)) :=
  ⟨by decide, rfl⟩

theorem witness_AccumulatorIsTheSumSinceTheLastClear :
    let is : List Instr := [.ckAdd [1#8], .ckAdd (List.replicate 23 1#8), .decode reply 9#8]
    let s := fun e : HostEvent => { busy with port := [e] ++ is.map (fun i => HostEvent.request (encode i)) ++ [.hardwareReset] }
    (∀ i ∈ is, i.wellFormed = true ∧ i ≠ .ckClear ∧ i ≠ .sreset) ∧
    (run (is.length + 1) (s (.request (encode .ckClear))) =
      .next (afterRun (is.length + 1) (s (.request (encode .ckClear))))) ∧
    (run (is.length + 1) (s (.request (encode .sreset))) =
      .next (afterRun (is.length + 1) (s (.request (encode .sreset))))) ∧
    (run (is.length + 1) (s .hardwareReset) = .next (afterRun (is.length + 1) (s .hardwareReset))) ∧
    exec (.decode reply 9#8) busy = .next (after (.decode reply 9#8) busy) :=
  ⟨by decide, rfl, rfl, rfl, rfl⟩

/-- `ACC` is 0x36, the sum of R104's example bytes; each of the four kinds of step. -/
theorem witness_StepKeepsTheRunningSum :
    let s := fun port : List HostEvent => { busy with acc := 0x36#8, port := port }
    let clear := [HostEvent.request [0x01#8]]
    let add := [HostEvent.request (encode (.ckAdd [0xFF#8]))]
    (s []).acc = BitVec.ofNat 8 (([0x03#8, 0x20#8, 0x12#8, 0x01#8].map BitVec.toNat).sum % 256) ∧
    step (s []) = .next (afterStep (s [])) ∧
    step (s [.hardwareReset]) = .next (afterStep (s [.hardwareReset])) ∧
    (step (s clear) = .next (afterStep (s clear)) ∧ decode [0x01#8] = .ok .ckClear) ∧
    (step (s add) = .next (afterStep (s add)) ∧ decode (encode (.ckAdd [0xFF#8])) = .ok (.ckAdd [0xFF#8])) :=
  ⟨by decide, rfl, rfl, ⟨rfl, rfl⟩, rfl, rfl⟩

theorem witness_EncodeBuildsTheFrame :
    (List.replicate 16 0#8).length ≤ (start true).params.maxPayload ∧
    (List.replicate 17 0#8).length > (start true).params.maxPayload := by decide

theorem witness_BuiltFramesSumToZero :
    (start false).params.Legal ∧ (List.replicate 16 0#8).length ≤ (start false).params.maxPayload :=
  ⟨testParams_legal false, by decide⟩

theorem witness_Pack16PacksLittleEndian : (0xFFFF#24).toNat ≤ 0xFFFF ∧ (0x10000#24).toNat > 0xFFFF := by decide

/-- The contract's three conditions at their boundaries, then each later step's failure, then acceptance. -/
theorem witness_DecodeValidatesAndParses :
    let h := (start true).params.h
    let m := (start true).params.maxFrame
    let broken := fun (inp : List Byte) (e : Nat) => e < h + 1 ∨ e > m ∨ inp.length > m
    let marked := fun inp : List Byte => inp.getD 0 0#8 = 0x3B#8
    let zero := fun inp : List Byte => ((inp.drop 1).map BitVec.toNat).sum % 256 = 0
    let counted := fun inp : List Byte => (start true).params.lengthByte = true → (inp.getD 1 0#8).toNat = inp.length - 3
    broken reply 5 ∧ broken reply 23 ∧ broken (List.replicate 23 0#8) 9 ∧ ¬broken reply 6 ∧ ¬broken reply 22 ∧
    (¬broken [] 9 ∧ ([] : List Byte).length ≠ 9) ∧
    (let f := reply.set 0 0x3C#8;
      ¬broken f 9 ∧ f.length = 9 ∧ ¬marked f) ∧
    (let f := reply.set 8 0x64#8;
      ¬broken f 9 ∧ f.length = 9 ∧ marked f ∧ ¬zero f) ∧
    (let f := (reply.set 1 0x07#8).set 8 0x62#8;
      ¬broken f 9 ∧ f.length = 9 ∧ marked f ∧ zero f ∧ ¬counted f) ∧
    (¬broken reply 9 ∧ reply.length = 9 ∧ marked reply ∧ zero reply ∧ counted reply) := by decide

theorem witness_ProtocolErrorsAreNormalResults :
    let t := after (.decode [] 9#8) busy
    exec (.decode [] 9#8) busy = .next t ∧ t.status ∈ [1#3, 2#3, 3#3] := ⟨rfl, by decide⟩

theorem witness_DecodeReturnsWhatEncodeBuilt :
    (start true).params.Legal ∧ (List.replicate 16 0x3B#8).length ≤ (start true).params.maxPayload :=
  ⟨testParams_legal true, by decide⟩

theorem witness_SingleBitFlipsAreDetected :
    let t := after (.decode reply 9#8) busy
    (0 < reply.length ∧ 8 < reply.length ∧ 7 < 8) ∧ reply.length ≤ 255 ∧
    exec (.decode reply (BitVec.ofNat 8 reply.length)) busy = .next t ∧ t.status = 0#3 :=
  ⟨by decide, by decide, rfl, by decide⟩

/-- Each bound where it fails first, `RXF_PLEN` being 3, and no valid frame; then a payload that differs only at and past
`RXF_PLEN`. -/
theorem witness_ExtractorsCheckTheirBounds :
    (start true).rxfValid = false ∧ (1#8).toNat + 3 > busy.rxfPlen.toNat ∧ (2#8).toNat + 2 > busy.rxfPlen.toNat ∧
    (3#8).toNat + 1 > busy.rxfPlen.toNat ∧
    (let other := [0x64#8, 0x00#8, 0x00#8, 0xFF#8];
      Instr.unpack24u 0#8 ∈ [Instr.unpack24u 0#8, .unpack24s 0#8, .decS12 0#8, .flagDec 0#8] ∧
      ∀ k, k < busy.rxfPlen.toNat → other.getD k 0#8 = busy.rxfPayload.getD k 0#8) ∧
    exec (.unpack24u 0#8) busy = .next (after (.unpack24u 0#8) busy) :=
  ⟨rfl, by decide, by decide, by decide, by decide, rfl⟩

theorem witness_Unpack24uReadsAnUnsignedField :
    (busy.rxfValid = true ∧ (0#8).toNat + 3 ≤ busy.rxfPlen.toNat) ∧ (1#8).toNat + 3 > busy.rxfPlen.toNat ∧
    (start true).rxfValid = false := by decide

theorem witness_Unpack24sReadsASignedField :
    (busy.rxfValid = true ∧ (0#8).toNat + 3 ≤ busy.rxfPlen.toNat) ∧ (1#8).toNat + 3 > busy.rxfPlen.toNat ∧
    (start true).rxfValid = false := by decide

theorem witness_DecS12ReadsASigned12BitField :
    (busy.rxfValid = true ∧ (1#8).toNat + 2 ≤ busy.rxfPlen.toNat) ∧ (2#8).toNat + 2 > busy.rxfPlen.toNat ∧
    (start true).rxfValid = false := by decide

theorem witness_FlagDecReadsAFlag :
    (busy.rxfValid = true ∧ (2#8).toNat + 1 ≤ busy.rxfPlen.toNat) ∧ (3#8).toNat + 1 > busy.rxfPlen.toNat ∧
    (start true).rxfValid = false := by decide

theorem witness_EveryOperationButNopWritesStatus :
    (Instr.ckClear ≠ .nop ∧ exec .ckClear busy = .next (after .ckClear busy) ∧ errorCode busy .ckClear = 0#3) ∧
    (let i := Instr.getPosition (.response []);
      i ≠ .nop ∧ exec i busy = .next (after i busy) ∧ errorCode busy i = 2#3) ∧
    exec .nop busy = .next (after .nop busy) :=
  ⟨⟨by decide, rfl, rfl⟩, ⟨by decide, rfl, by decide⟩, rfl⟩

theorem witness_ErrorsWriteOnlyTheirFlags :
    (let i := Instr.flagDec 3#8;
      i ≠ .nop ∧ exec i busy = .next (after i busy) ∧ (after i busy).status = 4#3) ∧
    (let i := Instr.getPosition (.response []);
      i ≠ .nop ∧ exec i busy = .next (after i busy) ∧ (after i busy).status = 2#3) :=
  ⟨⟨by decide, rfl, by decide⟩, by decide, rfl, by decide⟩

theorem witness_ErrorsEachOperationCanRaise :
    exec .ckClear busy = .next (after .ckClear busy) ∧
    exec (.pack24 0xFFFFFF#24) busy = .next (after (.pack24 0xFFFFFF#24) busy) ∧
    exec (.ckAdd []) busy = .next (after (.ckAdd []) busy) ∧
    exec (.encode 0#8 0#8 0#8 []) busy = .next (after (.encode 0#8 0#8 0#8 []) busy) ∧
    exec (.pack16 0x10000#24) busy = .next (after (.pack16 0x10000#24) busy) ∧
    exec (.decS12 1#8) busy = .next (after (.decS12 1#8) busy) ∧
    (∀ inp ∈ [[], reply.set 0 0x3C#8, reply.set 8 0x64#8, (reply.set 1 0x07#8).set 8 0x62#8, reply],
      ∀ e ∈ [5#8, 8#8, 9#8, 23#8], exec (.decode inp e) busy = .next (after (.decode inp e) busy)) ∧
    exec .nop busy = .next (after .nop busy) := by
  refine ⟨rfl, rfl, rfl, rfl, rfl, rfl, ?_, rfl⟩
  simp only [List.forall_mem_cons, List.not_mem_nil, false_implies, implies_true, and_true]
  exact ⟨⟨rfl, rfl, rfl, rfl⟩, ⟨rfl, rfl, rfl, rfl⟩, ⟨rfl, rfl, rfl, rfl⟩, ⟨rfl, rfl, rfl, rfl⟩, rfl, rfl, rfl, rfl⟩

theorem witness_FaultIsSticky :
    (Instr.flagDec 3#8 ≠ .nop ∧ exec (.flagDec 3#8) busy = .next (after (.flagDec 3#8) busy) ∧
      (after (.flagDec 3#8) busy).status = 4#3) ∧
    (exec .sreset faulted = .next (after .sreset faulted) ∧ faulted.fault = true) ∧
    (step faulted = .next (afterStep faulted) ∧ (afterStep faulted).fault = false) ∧
    (let s := busy.issueAll [.nop, .ckClear];
      1 ≤ 2 ∧ HostEvent.hardwareReset ∉ s.port ∧ run 1 s = .next (afterRun 1 s) ∧ SafeRun 2 s) :=
  ⟨⟨by decide, rfl, by decide⟩, ⟨rfl, rfl⟩, ⟨rfl, by decide⟩, by decide, by decide, rfl, _, rfl, rfl⟩

/-- For each register an instruction that changes it. -/
theorem witness_RegistersHaveOnlyTheirWriters :
    let run1 := fun i => exec i busy = .next (after i busy)
    (run1 (.ckAdd [1#8]) ∧ (after (.ckAdd [1#8]) busy).acc ≠ busy.acc ∧ (after (.ckAdd [1#8]) busy).status ≠ busy.status) ∧
    (run1 (.flagDec 3#8) ∧ (after (.flagDec 3#8) busy).fault ≠ busy.fault) ∧
    (run1 (.pack24 7#24) ∧ (after (.pack24 7#24) busy).obuf ≠ busy.obuf ∧ (after (.pack24 7#24) busy).olen ≠ busy.olen) ∧
    (run1 .ckRead ∧ (after .ckRead busy).result ≠ busy.result) ∧
    (run1 (.decode [] 9#8) ∧ (after (.decode [] 9#8) busy).rxfValid ≠ busy.rxfValid) ∧
    (run1 (.decode reply 9#8) ∧ (after (.decode reply 9#8) busy).rxfCmd ≠ busy.rxfCmd) ∧
    (run1 .sreset ∧ (after .sreset busy).rxfSrc ≠ busy.rxfSrc ∧ (after .sreset busy).rxfDst ≠ busy.rxfDst ∧
      (after .sreset busy).rxfPlen ≠ busy.rxfPlen ∧ (after .sreset busy).rxfPayload ≠ busy.rxfPayload) :=
  ⟨⟨rfl, by decide⟩, ⟨rfl, by decide⟩, ⟨rfl, by decide⟩, ⟨rfl, by decide⟩, ⟨rfl, by decide⟩, ⟨rfl, by decide⟩, rfl,
    by decide⟩

theorem witness_ScalarOperationsFrame :
    exec (.flagDec 3#8) busy = .next (after (.flagDec 3#8) busy) ∧ exec (.flagDec 2#8) busy = .next (after (.flagDec 2#8) busy) :=
  ⟨rfl, rfl⟩

theorem witness_OutputOperationsFrame :
    busy.params.Legal ∧ (∃ c payload, Instr.getPosition (.request []) = WireCmd.instr c (.request payload)) ∧
    exec (.getPosition (.request [])) busy = .next (after (.getPosition (.request [])) busy) ∧
    exec (.pack16 0x10000#24) busy = .next (after (.pack16 0x10000#24) busy) :=
  ⟨testParams_legal true, ⟨.getPosition, [], rfl⟩, rfl, rfl⟩

theorem witness_ParserOperationsFrame :
    (∃ c received, Instr.getPosition (.response reply) = WireCmd.instr c (.response received)) ∧
    exec (.getPosition (.response reply)) busy = .next (after (.getPosition (.response reply)) busy) ∧
    exec (.decode reply 5#8) busy = .next (after (.decode reply 5#8) busy) ∧
    exec (.decode reply 8#8) busy = .next (after (.decode reply 8#8) busy) := ⟨⟨.getPosition, reply, rfl⟩, rfl, rfl, rfl⟩

theorem witness_AccumulatorAndResetFrame :
    exec .ckClear busy = .next (after .ckClear busy) ∧
    exec (.ckAdd (List.replicate 23 1#8)) busy = .next (after (.ckAdd (List.replicate 23 1#8)) busy) ∧
    exec .sreset faulted = .next (after .sreset faulted) := ⟨rfl, rfl, rfl⟩

theorem witness_WireFormsAreTheirExpansions :
    (start true).params.Legal ∧ [0x64#8, 0#8, 0#8].length = reqLen (start true).params .moveAbs ∧
    [0x64#8, 0#8].length ≠ reqLen (start true).params .moveAbs := ⟨testParams_legal true, by decide, by decide⟩

theorem witness_WirePackersAndReadersFit :
    busy.params.Legal ∧
    (requestPacker busy.params 0xFFFF#24 .setMaxPos = some (.pack16 0xFFFF#24) ∧
      exec (.pack16 0xFFFF#24) busy = .next (after (.pack16 0xFFFF#24) busy) ∧
      (after (.pack16 0xFFFF#24) busy).status = 0#3) ∧
    (exec (.getPosition (.response reply)) busy = .next (after (.getPosition (.response reply)) busy) ∧
      (after (.getPosition (.response reply)) busy).status = 0#3 ∧
      Instr.unpack24u 0#8 ∈ responseReaders busy.params .getPosition) :=
  ⟨testParams_legal true, ⟨rfl, rfl, by decide⟩, rfl, by decide, by decide⟩

/-- Both ends of both ranges: MOVE_ABS is signed in the test parameters, SYNC is not. -/
theorem witness_PositionFieldsReadAsTicks :
    busy.params.Legal ∧ posSigned busy.params .moveAbs = some true ∧ posSigned busy.params .sync = some false ∧
    (-2 ^ 23 ≤ (-2 ^ 23 : Int) ∧ (2 ^ 23 - 1 : Int) < 2 ^ 23) ∧ (0 ≤ (0 : Int) ∧ (2 ^ 24 - 1 : Int) < 2 ^ 24) :=
  ⟨testParams_legal true, rfl, rfl, by decide, by decide⟩

theorem witness_GetPositionExchange : (start true).params.Legal ∧ (start false).params.Legal ∧
    Instr.unpack24u 0#8 ∈ responseReaders (start true).params .getPosition :=
  ⟨testParams_legal true, testParams_legal false, by decide⟩

theorem witness_TargetCommandsExchange : (start true).params.Legal ∧ ([] : List Byte).length = (start true).params.ackPayloadLen :=
  ⟨testParams_legal true, rfl⟩

theorem witness_FlagQueriesExchange : (start true).params.Legal ∧
    Instr.flagDec 0#8 ∈ responseReaders (start true).params .gotoDone := ⟨testParams_legal true, by decide⟩

theorem witness_FlagSettingsExchange : (start true).params.Legal ∧
    Instr.flagDec 0#8 ∈ responseReaders (start true).params .fanSet := ⟨testParams_legal true, by decide⟩

/-- The two lists of bytes are an ack's and a version's, of lengths 0 and 2 in the test parameters. -/
theorem witness_AbortAndVersionExchange : (start true).params.Legal ∧
    ([] : List Byte).length = (start true).params.ackPayloadLen ∧
    [0x01#8, 0x02#8].length = (start true).params.versionPayloadLen := ⟨testParams_legal true, rfl, rfl⟩

theorem witness_LimitCommandsExchange : (start true).params.Legal ∧
    ([] : List Byte).length = (start true).params.ackPayloadLen ∧
    ((start true).params.lenSetSlewLimit = .one) ∧
    ((start true).params.lenSetMaxPos = .two ∧ (0xFFFF#24).toNat ≤ 0xFFFF) :=
  ⟨testParams_legal true, rfl, rfl, rfl, by decide⟩

theorem witness_TempGetExchange : (start true).params.Legal ∧ (start false).params.Legal :=
  ⟨testParams_legal true, testParams_legal false⟩

end Sys2Proof.Tests
end

section
/-! PROOF. The parameters (spec/00_scope.md R6, R7): their values, their ranges, and that no step changes one. -/

namespace Sys2Proof

theorem LimitLen.toNat_mem (l : LimitLen) : l.toNat ∈ [1, 2] := by
  cases l with
  | one => simp [LimitLen.toNat]
  | two => simp [LimitLen.toNat]

/-- R7: the largest value of the length byte, `MAX_PAYLOAD + 3`, is at most 252. -/
theorem Params.Legal.lengthByte_le {p : Params} (hp : p.Legal) : p.maxPayload + 3 ≤ 252 := by
  have := hp.maxPayload_le; omega

/-- R6: whatever the OPEN value is, the length after reset is in `1..MAX_PAYLOAD`. -/
theorem Params.default_versionPayloadLen :
    1 ≤ Params.default.versionPayloadLen ∧ Params.default.versionPayloadLen ≤ 16 :=
  ⟨Nat.le_add_left _ _, Config.openVersionLenPred.isLt⟩

end Sys2Proof

namespace Sys2Proof.Machine

/-- No update of the registers that an instruction can make writes a parameter. -/
theorem Effect.params {k : Kind} {s t : State} (h : Effect k s t) : t.params = s.params := by
  cases h with
  | unchanged => rfl
  | reset => simp
  | accumulate => simp
  | result => simp
  | write => simp
  | protocolError => simp
  | parseContract => simp
  | accept => simp
  | contract => simp

theorem exec_params {i : Instr} {s t : State} (h : exec i s = .next t) : t.params = s.params :=
  (exec_effect h).params

theorem step_params {s t : State} (h : step s = .next t) : t.params = s.params := by
  obtain ⟨-, rfl⟩ | ⟨rest, -, rfl⟩ | ⟨r, rest, i, -, -, hexec⟩ := step_cases h
  · rfl
  · simp
  · simpa using exec_params hexec

/-- Settles O10: a step is idle, a reset or an instruction, and none of these writes `params`; R7's bounds follow from
the range of `MAX_PAYLOAD`. -/
theorem parametersAreFixed : Obligations.ParametersAreFixed := by
  unfold Obligations.ParametersAreFixed
  refine ⟨fun s t => step_params, ?values, ?defaults, fun p => ⟨rfl, rfl, ?maxPosLen, ?slewLimitLen, fun hp => ?ranges⟩,
    Params.default_versionPayloadLen⟩
  case values => exact ⟨rfl, rfl, rfl, rfl, rfl, rfl, rfl, rfl, rfl⟩
  case defaults => exact ⟨rfl, rfl, rfl, rfl, rfl, rfl, rfl⟩
  case maxPosLen => exact p.lenSetMaxPos.toNat_mem
  case slewLimitLen => exact p.lenSetSlewLimit.toNat_mem
  case ranges =>
    exact ⟨hp.maxPayload_ge, hp.maxPayload_le, hp.maxFrame_le, hp.lengthByte_le, hp.version_ge, hp.version_le⟩

end Sys2Proof.Machine
end

section
/-! PROOF. The reset values (spec/10_state.md R34, spec/40_checksum.md R110, spec/70_reset_and_hazards.md R231). -/

namespace Sys2Proof.Machine

/-- R110: SRESET is the software reset and then `STATUS <- 0`; of the registers, `FAULT` alone is not written. -/
theorem exec_sreset (s : State) : exec .sreset s = .next { s with
    acc := 0x00#8, status := 0#3, obuf := List.replicate s.params.maxFrame 0x00#8, olen := 0#8, result := 0#32,
    rxfValid := false, rxfSrc := 0x00#8, rxfDst := 0x00#8, rxfCmd := 0x00#8, rxfPlen := 0#8,
    rxfPayload := List.replicate s.params.maxPayload 0x00#8 } := rfl

theorem decodeTableWord_sreset : decodeTableWord 4 0xF = some .sreset := by decide

/-- Settles O8: R34's table is the definition of `State.reset`, and SRESET's next state is `exec_sreset`. -/
theorem resetAndSresetGiveTheResetValues : Obligations.ResetAndSresetGiveTheResetValues := by
  unfold Obligations.ResetAndSresetGiveTheResetValues
  refine ⟨?resetTable, decodeTableWord_sreset, exec_sreset⟩
  case resetTable => exact ⟨rfl, rfl, rfl, rfl, rfl, rfl, rfl, rfl, rfl, rfl, rfl, rfl⟩

end Sys2Proof.Machine
end

section
/-! PROOF. `STATUS` after an operation (spec/10_state.md R22): the code of the error that applies, in the order of
spec/60_exceptions.md R205, with the conditions of R206. -/

namespace Sys2Proof.Machine

/-! ### Which code each shared operation ends with -/

theorem contractCode_of_holds {c : Prop} [Decidable c] (h : c) : contractCode c = 4#3 := if_pos h

theorem contractCode_of_not {c : Prop} [Decidable c] (h : ¬ c) : contractCode c = 0#3 := if_neg h

theorem contractCode_congr {c d : Prop} [Decidable c] [Decidable d] (h : c ↔ d) : contractCode c = contractCode d := by
  simp only [contractCode, h]

/-- An operation that checks a condition and then completes. -/
theorem checked_status {c : Prop} [Decidable c] {s u t : State}
    (h : (if c then contractError s else .next u.complete) = .next t) : t.status = contractCode c := by
  split at h
  next hc =>
    obtain rfl := Host.Outcome.next.inj h
    rw [contractCode_of_holds hc]; rfl
  next hc =>
    obtain rfl := Host.Outcome.next.inj h
    rw [contractCode_of_not hc]; rfl

theorem buildFrame_status {src dst cmd : Byte} {p : List Byte} {s t : State}
    (h : buildFrame src dst cmd p s = .next t) : t.status = contractCode (p.length > s.params.maxPayload) :=
  checked_status h

theorem extractField_status {off : Byte} {w : Nat} {v : Word32} {s t : State}
    (h : extractField off w v s = .next t) : t.status = extractorCode s off w := by
  have hread := fieldReadable_iff s off w
  obtain ⟨hr, rfl⟩ | ⟨hr, rfl⟩ := extractField_cases h
  · obtain ⟨hvalid, hoff⟩ := hread.mp hr
    exact (contractCode_of_not (by simp [hvalid, hoff])).symm
  · have hbad : s.rxfValid = false ∨ off.toNat + w > s.rxfPlen.toNat := by
      by_contra hgood
      simp only [not_or, Bool.not_eq_false, gt_iff_lt, Nat.not_lt] at hgood
      simp [hread.mpr hgood] at hr
    exact (contractCode_of_holds hbad).symm

/-- Step 5 of R140 in the words of R205. -/
theorem lengthByteWrong_iff (p : Params) (inp : List Byte) :
    lengthByteWrong p inp = true ↔ p.lengthByte = true ∧ (inp.getD 1 0x00#8).toNat ≠ inp.length - 3 := by
  simp [lengthByteWrong, inputByte]

/-- `decodeErrorCode` in the terms of `parseFrame`'s own checks. -/
theorem decodeErrorCode_eq (p : Params) (inp : List Byte) (e : Nat) :
    decodeErrorCode p inp e =
      if e < p.h + 1 ∨ e > p.maxFrame ∨ inp.length > p.maxFrame then 4#3
      else if inp.length ≠ e then 2#3
      else if inputByte inp 0 ≠ startByte then 3#3
      else if byteSum (inp.drop 1) % 256 ≠ 0 then 1#3
      else if lengthByteWrong p inp = true then 2#3
      else 0#3 := by
  simp only [lengthByteWrong_iff]
  rfl

/-- The checks of `parseFrame`, in their order, are the conditions of R205 in theirs. -/
theorem parseFrame_status {inp : List Byte} {e : Nat} {s t : State} (h : parseFrame inp e s = .next t) :
    t.status = decodeErrorCode s.params inp e := by
  rw [decodeErrorCode_eq]
  obtain ⟨hbounds, h'⟩ | ⟨hlo, hhi, hfits, hcase⟩ := parseFrame_cases inp e s
  · obtain rfl := Host.Outcome.next.inj (h'.symm.trans h)
    rw [if_pos hbounds]; rfl
  rw [if_neg (by omega)]
  obtain ⟨hlen, h'⟩ | ⟨hlen, hstart, h'⟩ | ⟨hlen, hstart, hsum, h'⟩ | ⟨hlen, hstart, hsum, hbyte, h'⟩ |
    ⟨hlen, hstart, hsum, hbyte, h'⟩ := hcase <;> obtain rfl := Host.Outcome.next.inj (h'.symm.trans h)
  · simp [hlen, Status.code]
  · simp [hlen, hstart, Status.code]
  · simp [hlen, hstart, hsum, Status.code, -List.drop_one]
  · simp [hlen, hstart, hsum, hbyte, Status.code, -List.drop_one]
  · simp [hlen, hstart, hsum, hbyte, -List.drop_one]

theorem execWire_status {c : WireCmd} {f : WireForm} {s t : State} (h : execWire c f s = .next t) :
    t.status = wireErrorCode s c f := by
  cases f with
  | request p => exact buildFrame_status (sendRequest_cases h).2
  | response r => exact parseFrame_status h

/-- R123's test of the upper byte of `VAL`, as R206's bound on `VAL`. -/
theorem upperByte_ne_zero_iff (v : Word24) : v.extractLsb' 16 8 ≠ 0#8 ↔ v.toNat > 0xFFFF := by
  have hv := v.isLt
  rw [ne_eq, ← BitVec.toNat_inj, BitVec.extractLsb'_toNat, Nat.shiftRight_eq_div_pow]
  simp only [BitVec.toNat_ofNat]
  omega

/-- R22, R206: an operation other than NOP that answers a next state ends with the code of the error that applies. -/
theorem exec_status {i : Instr} {s t : State} (hi : i ≠ .nop) (h : exec i s = .next t) : t.status = errorCode s i := by
  cases i with
  | nop => exact absurd rfl hi
  | ckClear => obtain rfl := Host.Outcome.next.inj h; rfl
  | ckAdd inp => exact checked_status h
  | ckRead => obtain rfl := Host.Outcome.next.inj h; rfl
  | cksum inp => exact checked_status h
  | ckVerify inp => exact checked_status h
  | encode src dst cmd inp => exact buildFrame_status h
  | decode inp e => exact parseFrame_status h
  | pack24 v => obtain rfl := Host.Outcome.next.inj h; rfl
  | pack16 v => exact (checked_status h).trans (contractCode_congr (upperByte_ne_zero_iff v))
  | flagEnc v => obtain rfl := Host.Outcome.next.inj h; rfl
  | unpack24u off => exact extractField_status h
  | unpack24s off => exact extractField_status h
  | decS12 off => exact extractField_status h
  | flagDec off => exact extractField_status h
  | sreset => obtain rfl := Host.Outcome.next.inj h; rfl
  | getPosition f => exact execWire_status h
  | moveAbs f => exact execWire_status h
  | sync f => exact execWire_status h
  | gotoDone f => exact execWire_status h
  | abort f => exact execWire_status h
  | setMaxPos f => exact execWire_status h
  | setSlewLimit f => exact execWire_status h
  | fanGet f => exact execWire_status h
  | fanSet f => exact execWire_status h
  | calGet f => exact execWire_status h
  | calSet f => exact execWire_status h
  | tempGet f => exact execWire_status h
  | getVersion f => exact execWire_status h

/-! ### The codes that occur (R200) -/

theorem Status.code_mem (e : Status) : e.code ∈ [0#3, 1#3, 2#3, 3#3, 4#3] := by
  cases e <;> decide

theorem Effect.status_eq_code {k : Kind} {s t : State} (h : Effect k s t) (hk : k ≠ .nop) :
    ∃ e : Status, t.status = e.code := by
  cases h with
  | unchanged hnop => exact absurd hnop hk
  | reset => exact ⟨.ok, rfl⟩
  | accumulate => exact ⟨.ok, rfl⟩
  | result => exact ⟨.ok, rfl⟩
  | write => exact ⟨.ok, rfl⟩
  | protocolError e => exact ⟨e, rfl⟩
  | parseContract => exact ⟨.contractError, rfl⟩
  | accept => exact ⟨.ok, rfl⟩
  | contract => exact ⟨.contractError, rfl⟩

theorem WireForm.kind_ne_nop (f : WireForm) : WireForm.kind f ≠ .nop := by
  cases f <;> simp [WireForm.kind]

theorem kind_ne_nop {i : Instr} (hi : i ≠ .nop) : kind i ≠ .nop := by
  cases i with
  | nop => exact absurd rfl hi
  | _ => simp [kind, WireForm.kind_ne_nop]

/-! ### No operation reads `STATUS` -/

/-- No path of an operation but NOP reads `STATUS`, and each that answers a next state ends in `State.raise` or
`State.complete`, which overwrite it: the two next states are the same by unfolding these updates. -/
theorem exec_ignores_status {i : Instr} (hi : i ≠ .nop) (s : State) (x : BitVec 3) :
    exec i { s with status := x } = exec i s := by
  cases i with
  | nop => exact absurd rfl hi
  | _ => rfl

/-- Settles O39, from `exec_ignores_status`, `exec_status` and the codes an effect can leave. -/
theorem everyOperationButNopWritesStatus : Obligations.EveryOperationButNopWritesStatus := by
  unfold Obligations.EveryOperationButNopWritesStatus
  refine ⟨fun i s t x hi h => ⟨?ignores, exec_status hi h, ?code⟩, ?nop⟩
  case ignores => rw [exec_ignores_status hi, h]
  case code =>
    obtain ⟨e, he⟩ := (exec_effect h).status_eq_code (kind_ne_nop hi)
    rw [he]; exact e.code_mem
  case nop =>
    intro s t h
    obtain rfl := Host.Outcome.next.inj h
    rfl

end Sys2Proof.Machine
end

section
/-! PROOF. The frame ENCODE leaves in the output buffer (spec/30_encoding.md R62, R64, R65). -/

namespace Sys2Proof.Machine

/-! ### What the builder operations leave in the output buffer -/

@[simp] theorem State.complete_output (s : State) : s.complete.output = s.output := rfl

/-- R121: a payload within `MAX_PAYLOAD` is built into a frame. -/
theorem exec_encode {s : State} {p : List Byte} (src dst cmd : Byte) (hp : p.length ≤ s.params.maxPayload) :
    exec (.encode src dst cmd p) s = .next (s.writeOut (frame s.params src dst cmd p)).complete :=
  if_neg (Nat.not_lt.mpr hp)

/-- A frame within `MAX_PAYLOAD` is what the block outputs after it is written. -/
theorem output_writeOut_frame {s : State} {p : List Byte} (src dst cmd : Byte) (hs : s.params.Legal)
    (hp : p.length ≤ s.params.maxPayload) :
    (s.writeOut (frame s.params src dst cmd p)).output = frame s.params src dst cmd p := by
  have hmax : s.params.h + s.params.maxPayload + 1 ≤ 255 := hs.maxFrame_le
  exact output_writeOut (by rw [frame_length]; omega)

/-! ### The parts of a frame -/

theorem frame_head? (c : Params) (src dst cmd : Byte) (p : List Byte) :
    (frame c src dst cmd p).head? = some startByte := rfl

/-- After the start marker a frame holds its body and the body's checksum. -/
theorem frame_drop_one (c : Params) (src dst cmd : Byte) (p : List Byte) :
    (frame c src dst cmd p).drop 1 = frameBody c src dst cmd p ++ [checksum (frameBody c src dst cmd p)] := rfl

theorem frame_getLast? (c : Params) (src dst cmd : Byte) (p : List Byte) :
    (frame c src dst cmd p).getLast? = some (checksum (frameBody c src dst cmd p)) :=
  List.getLast?_concat

/-- R65: a frame's checksum is that of the bytes between the start marker and it. -/
theorem frame_getLast?_eq_checksum (c : Params) (src dst cmd : Byte) (p : List Byte) :
    (frame c src dst cmd p).getLast? = some (checksum ((frame c src dst cmd p).drop 1).dropLast) := by
  rw [frame_getLast?, frame_drop_one, List.dropLast_concat]

theorem byteSum_frame_drop_one (c : Params) (src dst cmd : Byte) (p : List Byte) :
    byteSum ((frame c src dst cmd p).drop 1) % 256 = 0 := by
  rw [frame_drop_one]
  exact byteSum_with_checksum _

/-- Settles O26: ENCODE outputs `frame`, whose parts are the lemmas above. -/
theorem builtFramesSumToZero : Obligations.BuiltFramesSumToZero := by
  unfold Obligations.BuiltFramesSumToZero
  intro s src dst cmd p hs hp
  refine ⟨_, exec_encode src dst cmd hp, ?_⟩
  rw [State.complete_output, output_writeOut_frame src dst cmd hs hp]
  exact ⟨frame_length _ _ _ _ _, frame_head? _ _ _ _ _, frame_getLast?_eq_checksum _ _ _ _ _,
    byteSum_frame_drop_one _ _ _ _ _⟩

end Sys2Proof.Machine
end

section
/-! PROOF. The ticks of a position field (spec/30_encoding.md R68), and PACK24 of a target
(spec/41_frame_builder.md R122). -/

namespace Sys2Proof.Machine

/-! ### The value of a field and its ticks -/

theorem append_bytes24_toNat (b0 b1 b2 : Byte) :
    (b2 ++ b1 ++ b0).toNat = b0.toNat + 256 * b1.toNat + 65536 * b2.toNat := by
  simp only [toNat_append_byte]
  omega

/-- R68: `toInt_24(u)` where the position is signed, and `u` where it is not. -/
theorem ticks_eq (signed : Bool) (u : Word24) :
    ticks signed u = if signed ∧ (2 ^ 23 : Int) ≤ u.toNat then (u.toNat : Int) - 2 ^ 24 else (u.toNat : Int) := by
  cases signed with
  | false => simp [ticks]
  | true =>
    simp only [ticks, BitVec.toInt_eq_toNat_cond, true_and, if_true]
    split <;> split <;> omega

theorem ticks_append_bytes (signed : Bool) (b0 b1 b2 : Byte) :
    let u : Int := b0.toNat + 256 * b1.toNat + 65536 * b2.toNat
    ticks signed (b2 ++ b1 ++ b0) = if signed ∧ 2 ^ 23 ≤ u then u - 2 ^ 24 else u := by
  rw [ticks_eq, append_bytes24_toNat]
  push_cast
  rfl

/-! ### The word of a target -/

/-- The targets of a position-class command: what 24 bits hold, signed or unsigned (R122). -/
def TickRange (signed : Bool) (T : Int) : Prop :=
  if signed then -2 ^ 23 ≤ T ∧ T < 2 ^ 23 else 0 ≤ T ∧ T < 2 ^ 24

/-- The 24-bit word of a target in range reads back as the target. -/
theorem ticks_ofInt {signed : Bool} {T : Int} (hT : TickRange signed T) :
    ticks signed (BitVec.ofInt 24 T) = T := by
  cases signed with
  | true =>
    obtain ⟨hlo, hhi⟩ : -2 ^ 23 ≤ T ∧ T < 2 ^ 23 := hT
    exact BitVec.toInt_ofInt_eq_self (by decide) hlo hhi
  | false =>
    obtain ⟨hlo, hhi⟩ : 0 ≤ T ∧ T < 2 ^ 24 := hT
    simp only [ticks, Bool.false_eq_true, if_false, BitVec.toNat_ofInt]
    omega

theorem positionTicks_of_posSigned {p : Params} {c : WireCmd} {signed : Bool} (h : posSigned p c = some signed)
    (b0 b1 b2 : Byte) : positionTicks p c b0 b1 b2 = some (ticks signed (b2 ++ b1 ++ b0)) := by
  rw [positionTicks, h, Option.map_some]

/-- R122: PACK24 outputs the three bytes of `VAL`. -/
theorem exec_pack24 (v : Word24) (s : State) :
    exec (.pack24 v) s = .next (s.writeOut (valBytes24 v)).complete := rfl

theorem output_writeOut_valBytes24 (s : State) (v : Word24) : (s.writeOut (valBytes24 v)).output = valBytes24 v :=
  output_writeOut (by simp [valBytes24])

/-- The packed bytes of a target in range read as the target: `VAL` is put together again (`valBytes_append`). -/
theorem positionTicks_valBytes {p : Params} {c : WireCmd} {signed : Bool} {T : Int}
    (h : posSigned p c = some signed) (hT : TickRange signed T) :
    let v := BitVec.ofInt 24 T
    positionTicks p c (v.extractLsb' 0 8) (v.extractLsb' 8 8) (v.extractLsb' 16 8) = some T := by
  intro v
  rw [positionTicks_of_posSigned h, valBytes_append, ticks_ofInt hT]

/-- Settles O51, from `ticks_append_bytes` for each command, the reset values, and `positionTicks_valBytes`. -/
theorem positionFieldsReadAsTicks : Obligations.PositionFieldsReadAsTicks := by
  unfold Obligations.PositionFieldsReadAsTicks
  refine ⟨fun p b0 b1 b2 => ?fields, ⟨rfl, rfl, rfl⟩, fun s c signed T _ hsigned hT => ?packed⟩
  case fields =>
    have hread (c : WireCmd) (signed : Bool) (h : posSigned p c = some signed) :=
      (positionTicks_of_posSigned h b0 b1 b2).trans (congrArg some (ticks_append_bytes signed b0 b1 b2))
    exact ⟨hread .getPosition _ rfl, hread .moveAbs _ rfl, hread .sync _ rfl⟩
  case packed =>
    exact ⟨_, _, _, _, exec_pack24 _ s, rfl, output_writeOut_valBytes24 s _, positionTicks_valBytes hsigned hT⟩

end Sys2Proof.Machine
end

section
/-! PROOF. The checksum of a byte sequence (spec/40_checksum.md R100). -/

namespace Sys2Proof.Machine

theorem checksum_eq_zero_iff (bs : List Byte) : checksum bs = 0x00#8 ↔ byteSum bs % 256 = 0 := by
  rw [← BitVec.toNat_inj, checksum_toNat, BitVec.toNat_ofNat]
  omega

/-- R100: 8-bit additions, each of which discards its carry, end with the residue of the unbounded sum. -/
theorem foldl_add_eq_add_byteSum (bs : List Byte) (a : Byte) :
    bs.foldl (fun a b => a + b) a = a + BitVec.ofNat 8 (byteSum bs) := by
  induction bs generalizing a with
  | nil => simp
  | cons b bs ih =>
    calc (b :: bs).foldl (fun a b => a + b) a
        = a + b + BitVec.ofNat 8 (byteSum bs) := ih (a + b)
      _ = a + BitVec.ofNat 8 (byteSum (b :: bs)) := by simp [BitVec.ofNat_add, BitVec.add_assoc]

theorem checksum_eq_neg_foldl (bs : List Byte) : checksum bs = -(bs.foldl (fun a b => a + b) 0#8) := by
  rw [foldl_add_eq_add_byteSum, BitVec.zero_add, checksum_eq_neg]

/-- Settles O19: R100's formula is the definition of `checksum`; the other forms are the lemmas above and
`checksum_eq_neg`. -/
theorem checksumIsTheNegatedByteSum : Obligations.ChecksumIsTheNegatedByteSum := by
  unfold Obligations.ChecksumIsTheNegatedByteSum
  exact fun bs => ⟨rfl, checksum_eq_neg bs, rfl, checksum_eq_zero_iff bs, checksum_eq_neg_foldl bs⟩

end Sys2Proof.Machine
end

section
/-! PROOF. NOP and the operations of the checksum generator (spec/40_checksum.md R103 to R107, R109). -/

namespace Sys2Proof.Machine

/-! ### What each operation answers -/

/-- R109: NOP writes no register, `STATUS` included. -/
theorem exec_nop (s : State) : exec .nop s = .next s := rfl

/-- R103: CK_CLEAR writes `ACC` and `STATUS`. -/
theorem exec_ckClear (s : State) : exec .ckClear s = .next { s with acc := 0x00#8, status := 0#3 } := rfl

/-- R105: CK_READ writes `RESULT` and `STATUS`. -/
theorem exec_ckRead (s : State) : exec .ckRead s = .next { s with
    result := BitVec.ofNat 32 ((256 - s.acc.toNat) % 256), status := 0#3 } := rfl

/-- R104: within `MAX_FRAME`, CK_ADD writes `ACC` and `STATUS`. -/
theorem exec_ckAdd {s : State} {inp : List Byte} (h : inp.length ≤ s.params.maxFrame) :
    exec (.ckAdd inp) s = .next { s with
      acc := BitVec.ofNat 8 ((s.acc.toNat + byteSum inp) % 256), status := 0#3 } :=
  if_neg (Nat.not_lt.mpr h)

/-- R106: within `MAX_FRAME`, CKSUM writes `RESULT` and `STATUS`. -/
theorem exec_cksum {s : State} {inp : List Byte} (h : inp.length ≤ s.params.maxFrame) :
    exec (.cksum inp) s = .next { s with result := (checksum inp).setWidth 32, status := 0#3 } :=
  if_neg (Nat.not_lt.mpr h)

/-- R107: within `MAX_FRAME`, CK_VERIFY writes `RESULT` and `STATUS`. -/
theorem exec_ckVerify {s : State} {inp : List Byte} (h : inp.length ≤ s.params.maxFrame) :
    exec (.ckVerify inp) s = .next { s with result := boolWord (sumsToZero inp), status := 0#3 } :=
  if_neg (Nat.not_lt.mpr h)

/-- The bound the three operations with input share: beyond `MAX_FRAME`, CONTRACT_ERROR writes `STATUS` and `FAULT`. -/
theorem exec_checksumOp_contract {s : State} {inp : List Byte} {i : Instr}
    (hi : i ∈ [Instr.ckAdd inp, .cksum inp, .ckVerify inp]) (h : inp.length > s.params.maxFrame) :
    exec i s = .next { s with status := 4#3, fault := true } := by
  simp only [List.mem_cons, List.not_mem_nil, or_false] at hi
  obtain rfl | rfl | rfl := hi
  · exact if_pos h
  · exact if_pos h
  · exact if_pos h

/-! ### The results as 32-bit words -/

theorem checksum_setWidth (bs : List Byte) :
    (checksum bs).setWidth 32 = BitVec.ofNat 32 ((256 - byteSum bs % 256) % 256) := by
  apply BitVec.eq_of_toNat_eq
  rw [BitVec.toNat_setWidth, BitVec.toNat_ofNat, checksum_toNat]

theorem boolWord_sumsToZero (bs : List Byte) :
    boolWord (sumsToZero bs) = if byteSum bs % 256 = 0 then 1#32 else 0#32 := by
  simp only [boolWord, sumsToZero_iff]

/-! ### The statements -/

/-- Settles O13. -/
theorem nopWritesNothing : Obligations.NopWritesNothing := by
  unfold Obligations.NopWritesNothing
  exact ⟨by decide, exec_nop⟩

/-- Settles O14. -/
theorem ckClearClearsTheAccumulator : Obligations.CkClearClearsTheAccumulator := by
  unfold Obligations.CkClearClearsTheAccumulator
  exact ⟨by decide, exec_ckClear⟩

/-- Settles O15: the two sides of the bound are `exec_ckAdd` and `exec_checksumOp_contract`. -/
theorem ckAddAddsTheBytes : Obligations.CkAddAddsTheBytes := by
  unfold Obligations.CkAddAddsTheBytes
  refine ⟨by decide, fun s inp => ⟨fun h => ?completes, fun h => ?contract⟩⟩
  case completes => exact exec_ckAdd h
  case contract => exact exec_checksumOp_contract (by simp) h

/-- Settles O16. -/
theorem ckReadReadsTheChecksum : Obligations.CkReadReadsTheChecksum := by
  unfold Obligations.CkReadReadsTheChecksum
  exact ⟨by decide, exec_ckRead⟩

/-- Settles O17: within the bound `RESULT` is the checksum, whose word `checksum_setWidth` gives. -/
theorem cksumComputesTheChecksum : Obligations.CksumComputesTheChecksum := by
  unfold Obligations.CksumComputesTheChecksum
  refine ⟨by decide, fun s inp => ⟨fun h => ?completes, fun h => ?contract⟩⟩
  case completes => rw [exec_cksum h, checksum_setWidth, byteSum]
  case contract => exact exec_checksumOp_contract (by simp) h

/-- Settles O18: within the bound `RESULT` is the test of the sum, whose word `boolWord_sumsToZero` gives. -/
theorem ckVerifyChecksTheSum : Obligations.CkVerifyChecksTheSum := by
  unfold Obligations.CkVerifyChecksTheSum
  refine ⟨by decide, fun s inp => ⟨fun h => ?completes, fun h => ?contract⟩⟩
  case completes => rw [exec_ckVerify h, boolWord_sumsToZero, byteSum]
  case contract => exact exec_checksumOp_contract (by simp) h

end Sys2Proof.Machine
end


section
/-! PROOF. The command frame builder and the packers (spec/41_frame_builder.md R120 to R124). -/

namespace Sys2Proof.Machine

/-! ### What each operation answers -/

/-- R24, R22: an operation that writes the output buffer and completes changes `OBUF`, `OLEN` and `STATUS`. -/
theorem State.complete_writeOut (s : State) (bs : List Byte) :
    (s.writeOut bs).complete = { s with
      obuf := bs ++ List.replicate (s.params.maxFrame - bs.length) 0x00#8
      olen := BitVec.ofNat 8 bs.length
      status := 0#3 } := rfl

/-- R121: beyond `MAX_PAYLOAD`, CONTRACT_ERROR writes `STATUS` and `FAULT`. -/
theorem exec_encode_contract {s : State} {p : List Byte} (src dst cmd : Byte) (hp : p.length > s.params.maxPayload) :
    exec (.encode src dst cmd p) s = .next { s with status := 4#3, fault := true } :=
  if_pos hp

/-- R123: PACK16 of a `VAL` that fits in 16 bits outputs its two low bytes. -/
theorem exec_pack16 {v : Word24} (s : State) (hv : v.toNat ≤ 0xFFFF) :
    exec (.pack16 v) s = .next (s.writeOut (valBytes16 v)).complete :=
  if_neg (mt (upperByte_ne_zero_iff v).mp (Nat.not_lt.mpr hv))

/-- R123: of a larger `VAL`, CONTRACT_ERROR writes `STATUS` and `FAULT`. -/
theorem exec_pack16_contract {v : Word24} (s : State) (hv : v.toNat > 0xFFFF) :
    exec (.pack16 v) s = .next { s with status := 4#3, fault := true } :=
  if_pos ((upperByte_ne_zero_iff v).mpr hv)

/-- R124: FLAG_ENC outputs the flag byte of `VAL`, read as a Boolean. -/
theorem exec_flagEnc (v : Word24) (s : State) :
    exec (.flagEnc v) s = .next (s.writeOut [flagByte (v != 0#24)]).complete := rfl

/-! ### The bytes written, from the number `VAL` -/

theorem extractLsb'_byte_eq_div (v : Word24) (k : Nat) : v.extractLsb' k 8 = BitVec.ofNat 8 (v.toNat / 2 ^ k) := by
  rw [BitVec.extractLsb', Nat.shiftRight_eq_div_pow]

/-- R122: the bytes of `VAL` are its base-256 digits, lowest first. -/
theorem valBytes24_eq_digits (v : Word24) :
    valBytes24 v = [BitVec.ofNat 8 v.toNat, BitVec.ofNat 8 (v.toNat / 256), BitVec.ofNat 8 (v.toNat / 65536)] := by
  simp [valBytes24, extractLsb'_byte_eq_div]

theorem valBytes16_eq_digits (v : Word24) :
    valBytes16 v = [BitVec.ofNat 8 v.toNat, BitVec.ofNat 8 (v.toNat / 256)] := by
  simp [valBytes16, extractLsb'_byte_eq_div]

/-- R124: every `VAL` that is not zero encodes as `0x01`. -/
theorem flagByte_ne_zero (v : Word24) :
    flagByte (v != 0#24) = if v.toNat = 0 then 0x00#8 else 0x01#8 := by
  by_cases hv : v = 0#24
  · subst hv; rfl
  · have hn : v.toNat ≠ 0 := fun h => hv (BitVec.eq_of_toNat_eq h)
    rw [if_neg hn, bne_iff_ne.mpr hv]
    rfl

/-! ### The statements -/

/-- Settles O25: `frame` is R120's sequence by definition, and the two sides of the bound are `exec_encode` and
`exec_encode_contract`. -/
theorem encodeBuildsTheFrame : Obligations.EncodeBuildsTheFrame := by
  unfold Obligations.EncodeBuildsTheFrame
  refine ⟨by decide, fun s src dst cmd p =>
    ⟨frame_length s.params src dst cmd p, fun hp => ?completes, fun hp => ?contract⟩⟩
  case completes =>
    rw [exec_encode src dst cmd hp, State.complete_writeOut, frame_length]
    rfl
  case contract => exact exec_encode_contract src dst cmd hp

/-- Settles O27. -/
theorem pack24PacksLittleEndian : Obligations.Pack24PacksLittleEndian := by
  unfold Obligations.Pack24PacksLittleEndian
  refine ⟨by decide, fun s val => ?_⟩
  rw [exec_pack24, State.complete_writeOut, valBytes24_eq_digits]
  rfl

/-- Settles O28: the two sides of the bound are `exec_pack16` and `exec_pack16_contract`. -/
theorem pack16PacksLittleEndian : Obligations.Pack16PacksLittleEndian := by
  unfold Obligations.Pack16PacksLittleEndian
  refine ⟨by decide, fun s val => ⟨fun hv => ?completes, fun hv => ?contract⟩⟩
  case completes =>
    rw [exec_pack16 s hv, State.complete_writeOut, valBytes16_eq_digits]
    rfl
  case contract => exact exec_pack16_contract s hv

/-- Settles O29. -/
theorem flagEncEncodesABoolean : Obligations.FlagEncEncodesABoolean := by
  unfold Obligations.FlagEncEncodesABoolean
  refine ⟨by decide, fun s val => ?_⟩
  rw [exec_flagEnc, State.complete_writeOut, flagByte_ne_zero]
  rfl

end Sys2Proof.Machine
end

section
/-! PROOF. DECODE, the response frame validator and parser (spec/42_response_parser.md R140). -/

namespace Sys2Proof.Machine

/-! ### The conditions and the writes of the six steps -/

/-- Step 1 of R140: the three ways to break DECODE's contract. -/
abbrev BreaksDecodeContract (p : Params) (inp : List Byte) (e : Nat) : Prop :=
  e < p.h + 1 ∨ e > p.maxFrame ∨ inp.length > p.maxFrame

theorem sumsToZero_eq_false_iff (bs : List Byte) : sumsToZero bs = false ↔ byteSum bs % 256 ≠ 0 := by
  rw [← Bool.not_eq_true, sumsToZero_iff]

/-- Step 5 of R140 passes where there is no length byte and where the length byte is `INLEN - 3`. -/
theorem lengthByteWrong_eq_false_iff (p : Params) (inp : List Byte) :
    lengthByteWrong p inp = false ↔ (p.lengthByte = true → (inp.getD 1 0x00#8).toNat = inp.length - 3) := by
  rw [← Bool.not_eq_true, lengthByteWrong_iff, not_and, not_ne_iff]

/-- Step 6 of R140: the payload is all `n` bytes between header and checksum, so the zeros begin at `n`. -/
theorem State.complete_acceptFrame (s : State) (inp : List Byte) :
    let h := s.params.h
    let n := inp.length - h - 1
    (s.acceptFrame inp).complete = { s with
      rxfSrc := inp.getD (h - 3) 0x00#8
      rxfDst := inp.getD (h - 2) 0x00#8
      rxfCmd := inp.getD (h - 1) 0x00#8
      rxfPlen := BitVec.ofNat 8 n
      rxfPayload := (inp.drop h).take n ++ List.replicate (s.params.maxPayload - n) 0x00#8
      rxfValid := true
      status := 0#3 } := by
  intro h n
  have hlen : ((inp.drop h).take n).length = n := by
    rw [List.length_take, List.length_drop]; omega
  have hpad : padTo s.params.maxPayload ((inp.drop h).take n) =
      (inp.drop h).take n ++ List.replicate (s.params.maxPayload - n) 0x00#8 := by
    rw [padTo, hlen]
  rw [← hpad]
  rfl

/-! ### What `parseFrame` answers at each step -/

section
variable {s : State} {inp : List Byte} {e : Nat}

theorem parseFrame_contract (hc : BreaksDecodeContract s.params inp e) :
    parseFrame inp e s = .next { s with status := 4#3, fault := true } := by
  rw [parseFrame, if_pos hc]; rfl

variable (hc : ¬ BreaksDecodeContract s.params inp e)
include hc

theorem parseFrame_unexpected_length (hlen : inp.length ≠ e) :
    parseFrame inp e s = .next { s with status := 2#3, rxfValid := false } := by
  rw [parseFrame, if_neg hc, if_pos hlen]; rfl

variable (hlen : inp.length = e)
include hlen

theorem parseFrame_unmarked (hstart : inputByte inp 0 ≠ startByte) :
    parseFrame inp e s = .next { s with status := 3#3, rxfValid := false } := by
  rw [parseFrame, if_neg hc, if_neg (not_not.mpr hlen), if_pos hstart]; rfl

variable (hstart : inputByte inp 0 = startByte)
include hstart

/-- Past the start marker, the sum and the length byte are left to check. -/
theorem parseFrame_marked :
    parseFrame inp e s =
      if !sumsToZero (inp.drop 1) then decodeError s .checksumError
      else if lengthByteWrong s.params inp then decodeError s .frameLengthError
      else .next (s.acceptFrame inp).complete := by
  rw [parseFrame, if_neg hc, if_neg (not_not.mpr hlen), if_neg (not_not.mpr hstart)]

theorem parseFrame_bad_sum (hsum : byteSum (inp.drop 1) % 256 ≠ 0) :
    parseFrame inp e s = .next { s with status := 1#3, rxfValid := false } := by
  rw [parseFrame_marked hc hlen hstart, (sumsToZero_eq_false_iff _).mpr hsum]; rfl

variable (hsum : byteSum (inp.drop 1) % 256 = 0)
include hsum

theorem parseFrame_wrong_length_byte (hbyte : lengthByteWrong s.params inp = true) :
    parseFrame inp e s = .next { s with status := 2#3, rxfValid := false } := by
  rw [parseFrame_marked hc hlen hstart, (sumsToZero_iff _).mpr hsum, hbyte]; rfl

theorem parseFrame_accepts (hbyte : lengthByteWrong s.params inp = false) :
    parseFrame inp e s = .next (s.acceptFrame inp).complete := by
  rw [parseFrame_marked hc hlen hstart, (sumsToZero_iff _).mpr hsum, hbyte]; rfl

end

theorem exec_decode (inp : List Byte) (explen : Byte) (s : State) :
    exec (.decode inp explen) s = parseFrame inp explen.toNat s := rfl

/-- Settles O30: one lemma on `parseFrame` for each step. -/
theorem decodeValidatesAndParses : Obligations.DecodeValidatesAndParses := by
  unfold Obligations.DecodeValidatesAndParses
  refine ⟨by decide, fun s inp explen => ?_⟩
  rw [exec_decode, ← lengthByteWrong_eq_false_iff]
  refine ⟨parseFrame_contract, parseFrame_unexpected_length, parseFrame_unmarked, parseFrame_bad_sum,
    fun hc hlen hstart hsum hbyte => ?lengthByte, fun hc hlen hstart hsum hbyte => ?accepts⟩
  case lengthByte => exact parseFrame_wrong_length_byte hc hlen hstart hsum (eq_true_of_ne_false hbyte)
  case accepts =>
    rw [parseFrame_accepts hc hlen hstart hsum hbyte, State.complete_acceptFrame]

end Sys2Proof.Machine
end

section
/-! PROOF. The field extractors (spec/42_response_parser.md R144 to R149). -/

namespace Sys2Proof.Machine

/-! ### The shared check of R144 -/

theorem fieldReadable_eq_false_iff (s : State) (off : Byte) (w : Nat) :
    s.fieldReadable off w = false ↔ s.rxfValid = false ∨ off.toNat + w > s.rxfPlen.toNat := by
  rw [← Bool.not_eq_true, fieldReadable_iff, not_and_or, Bool.not_eq_true, Nat.not_le]

/-- Within a decoded payload, an extractor writes `RESULT` and `STATUS`. -/
theorem extractField_completes {s : State} {off : Byte} {w : Nat} (v : Word32)
    (hvalid : s.rxfValid = true) (hoff : off.toNat + w ≤ s.rxfPlen.toNat) :
    extractField off w v s = .next { s with result := v, status := 0#3 } :=
  if_pos ((fieldReadable_iff s off w).mpr ⟨hvalid, hoff⟩)

/-- Elsewhere CONTRACT_ERROR writes `STATUS` and `FAULT`, whatever the value would have been. -/
theorem extractField_contract {s : State} {off : Byte} {w : Nat} (v : Word32)
    (h : s.rxfValid = false ∨ off.toNat + w > s.rxfPlen.toNat) :
    extractField off w v s = .next { s with status := 4#3, fault := true } := by
  rw [extractField, (fieldReadable_eq_false_iff s off w).mpr h]; rfl

/-- An extractor whose value depends on the bytes of its field alone does the same with another payload that agrees below
`RXF_PLEN`, and keeps that payload. -/
theorem extractField_with_payload {s t : State} {off : Byte} {w : Nat} {v v' : Word32} {other : List Byte}
    (hsame : ∀ k, k < s.rxfPlen.toNat → other.getD k 0x00#8 = s.rxfPayload.getD k 0x00#8)
    (hv : (∀ k, k < off.toNat + w → other.getD k 0x00#8 = s.rxfPayload.getD k 0x00#8) → v' = v)
    (h : extractField off w v s = .next t) :
    extractField off w v' { s with rxfPayload := other } = .next { t with rxfPayload := other } := by
  obtain ⟨hread, rfl⟩ | ⟨hread, rfl⟩ := extractField_cases h
  · obtain ⟨hvalid, hoff⟩ := (fieldReadable_iff s off w).mp hread
    rw [hv fun k hk => hsame k (by omega)]
    exact extractField_completes v hvalid hoff
  · exact extractField_contract v' ((fieldReadable_eq_false_iff s off w).mp hread)

/-! ### Each extractor is `extractField` of its width and value -/

theorem exec_unpack24u (off : Byte) (s : State) :
    exec (.unpack24u off) s = extractField off 3 ((s.field24 off).setWidth 32) s := rfl

theorem exec_unpack24s (off : Byte) (s : State) :
    exec (.unpack24s off) s = extractField off 3 ((s.field24 off).signExtend 32) s := rfl

theorem exec_decS12 (off : Byte) (s : State) :
    exec (.decS12 off) s = extractField off 2 ((s.field12 off).signExtend 32) s := rfl

theorem exec_flagDec (off : Byte) (s : State) :
    exec (.flagDec off) s = extractField off 1 (boolWord (s.payloadByte off.toNat != 0x00#8)) s := rfl

/-! ### The fields as numbers -/

/-- R68: the field's bytes are its base-256 digits, lowest first. -/
theorem State.field24_toNat (s : State) (off : Byte) :
    (s.field24 off).toNat = (s.payloadByte off.toNat).toNat + 256 * (s.payloadByte (off.toNat + 1)).toNat +
      65536 * (s.payloadByte (off.toNat + 2)).toNat :=
  append_bytes24_toNat _ _ _

/-- R71: of the nibble byte, the field has the lower nibble only. -/
theorem toNat_nibble_append_byte (nb lo : Byte) :
    (nb.extractLsb' 0 4 ++ lo).toNat = nb.toNat % 16 * 256 + lo.toNat := by
  rw [toNat_append_byte, BitVec.extractLsb'_toNat, Nat.shiftRight_zero]

/-- R71, R147: which of the two bytes is the nibble byte depends on `S12_NIBBLE_FIRST`. -/
theorem State.field12_toNat (s : State) (off : Byte) :
    let b := fun k => (s.payloadByte (off.toNat + k)).toNat
    (s.field12 off).toNat = (if s.params.s12NibbleFirst then b 0 else b 1) % 16 * 256 +
      if s.params.s12NibbleFirst then b 1 else b 0 := by
  simp only [State.field12]
  cases s.params.s12NibbleFirst <;> exact toNat_nibble_append_byte _ _

/-- Sign extension as the two's-complement value of the number (spec/00_scope.md R10). -/
theorem signExtend_eq_ofInt (w n : Nat) (x : BitVec (w + 1)) :
    x.signExtend n = BitVec.ofInt n (if x.toNat < 2 ^ w then (x.toNat : Int) else (x.toNat : Int) - 2 ^ (w + 1)) := by
  have hhalf : 2 * x.toNat < 2 ^ (w + 1) ↔ x.toNat < 2 ^ w := by omega
  rw [BitVec.signExtend, BitVec.toInt_eq_toNat_cond]
  simp only [hhalf]
  push_cast
  rfl

/-- R149: every byte that is not zero reads as 1. -/
theorem boolWord_ne_zero (b : Byte) : boolWord (b != 0x00#8) = if b = 0x00#8 then 0#32 else 1#32 := by
  by_cases hb : b = 0x00#8
  · subst hb; rfl
  · rw [if_neg hb, bne_iff_ne.mpr hb]; rfl

/-! ### The bytes a field depends on -/

section
variable {s : State} {off : Byte} {other : List Byte}

theorem State.field24_with_payload
    (h : ∀ k, k < off.toNat + 3 → other.getD k 0x00#8 = s.rxfPayload.getD k 0x00#8) :
    { s with rxfPayload := other }.field24 off = s.field24 off := by
  simp only [State.field24, State.payloadByte]
  rw [h _ (by omega), h _ (by omega), h _ (by omega)]

theorem State.field12_with_payload
    (h : ∀ k, k < off.toNat + 2 → other.getD k 0x00#8 = s.rxfPayload.getD k 0x00#8) :
    { s with rxfPayload := other }.field12 off = s.field12 off := by
  simp only [State.field12, State.payloadByte]
  rw [h _ (by omega), h _ (by omega)]

end

/-! ### The statements -/

/-- Settles O34: the bound is `extractField_contract`, and `extractField_with_payload` says which bytes have an effect. -/
theorem extractorsCheckTheirBounds : Obligations.ExtractorsCheckTheirBounds := by
  unfold Obligations.ExtractorsCheckTheirBounds
  refine ⟨fun s off => ⟨fun h => ⟨extractField_contract _ h, extractField_contract _ h⟩,
    fun h => extractField_contract _ h, fun h => extractField_contract _ h⟩, fun s t i off other hi hsame h => ?past⟩
  case past =>
    simp only [List.mem_cons, List.not_mem_nil, or_false] at hi
    obtain rfl | rfl | rfl | rfl := hi
    · exact extractField_with_payload hsame (fun hf => congrArg (·.setWidth 32) (State.field24_with_payload hf)) h
    · exact extractField_with_payload hsame (fun hf => congrArg (·.signExtend 32) (State.field24_with_payload hf)) h
    · exact extractField_with_payload hsame (fun hf => congrArg (·.signExtend 32) (State.field12_with_payload hf)) h
    · exact extractField_with_payload hsame (fun hf => congrArg (boolWord <| · != 0x00#8) (hf _ (by omega))) h

/-- Settles O35: the field's number is `State.field24_toNat`. -/
theorem unpack24uReadsAnUnsignedField : Obligations.Unpack24uReadsAnUnsignedField := by
  unfold Obligations.Unpack24uReadsAnUnsignedField
  refine ⟨by decide, fun s off => ⟨fun hvalid hoff => ?completes, fun h => extractField_contract _ h⟩⟩
  rw [exec_unpack24u, extractField_completes _ hvalid hoff, ← BitVec.ofNat_toNat, State.field24_toNat]
  rfl

/-- Settles O36: the field's number is `State.field24_toNat`, read as two's complement by `signExtend_eq_ofInt`. -/
theorem unpack24sReadsASignedField : Obligations.Unpack24sReadsASignedField := by
  unfold Obligations.Unpack24sReadsASignedField
  refine ⟨by decide, fun s off => ⟨fun hvalid hoff => ?completes, fun h => extractField_contract _ h⟩⟩
  rw [exec_unpack24s, extractField_completes _ hvalid hoff, signExtend_eq_ofInt 23, State.field24_toNat]
  rfl

/-- Settles O37: the field's number is `State.field12_toNat`, read as two's complement by `signExtend_eq_ofInt`. -/
theorem decS12ReadsASigned12BitField : Obligations.DecS12ReadsASigned12BitField := by
  unfold Obligations.DecS12ReadsASigned12BitField
  refine ⟨by decide, fun s off => ⟨fun hvalid hoff => ?completes, fun h => extractField_contract _ h⟩⟩
  rw [exec_decS12, extractField_completes _ hvalid hoff, signExtend_eq_ofInt 11, State.field12_toNat]
  rfl

/-- Settles O38. -/
theorem flagDecReadsAFlag : Obligations.FlagDecReadsAFlag := by
  unfold Obligations.FlagDecReadsAFlag
  refine ⟨by decide, fun s off => ⟨fun hvalid hoff => ?completes, fun h => extractField_contract _ h⟩⟩
  rw [exec_flagDec, extractField_completes _ hvalid hoff, boolWord_ne_zero]
  rfl

end Sys2Proof.Machine
end

section
/-! PROOF. What an error writes (spec/60_exceptions.md R201, R203). -/

namespace Sys2Proof.Machine

/-! ### The two ways to raise an error -/

/-- R203: CONTRACT_ERROR sets `FAULT` and leaves `RXF_VALID`, also when DECODE raises it. -/
theorem State.raise_contractError (s : State) (byDecode : Bool) :
    s.raise byDecode .contractError = { s with status := 4#3, fault := true } := rfl

/-- R203: the codes 1, 2 and 3, when DECODE raises them, clear `RXF_VALID` and leave `FAULT`. -/
theorem State.raise_protocolError {e : Status} (s : State) (hok : e ≠ .ok) (hcontract : e ≠ .contractError) :
    s.raise true e = { s with status := e.code, rxfValid := false } := by
  cases e with
  | ok => exact absurd rfl hok
  | checksumError => rfl
  | frameLengthError => rfl
  | malformedStartError => rfl
  | contractError => exact absurd rfl hcontract

theorem Status.code_ne_four {e : Status} (h : e ≠ .contractError) : e.code ≠ 4#3 := by
  cases e with
  | contractError => exact absurd rfl h
  | _ => decide

/-! ### All that an operation that ends with an error writes -/

/-- An operation other than NOP with an error in `STATUS` has raised CONTRACT_ERROR, or is a parse that has raised another. -/
theorem Effect.error_cases {k : Kind} {s t : State} (h : Effect k s t) (hk : k ≠ .nop) (ht : t.status ≠ 0#3) :
    t = { s with status := 4#3, fault := true } ∨
    (k = .parser ∧ t.status ≠ 4#3 ∧ t = { s with status := t.status, rxfValid := false }) := by
  cases h with
  | unchanged hnop => exact absurd hnop hk
  | reset => exact absurd rfl ht
  | accumulate => exact absurd rfl ht
  | result => exact absurd rfl ht
  | write => exact absurd rfl ht
  | protocolError e hparser hok hcontract =>
    exact .inr ⟨hparser, Status.code_ne_four hcontract, State.raise_protocolError s hok hcontract⟩
  | parseContract => exact .inl (State.raise_contractError s true)
  | accept => exact absurd rfl ht
  | contract => exact .inl (State.raise_contractError s false)

/-! ### The instructions that parse -/

theorem WireForm.eq_response_of_kind {f : WireForm} (h : WireForm.kind f = .parser) :
    ∃ received, f = .response received := by
  cases f with
  | request payload => cases h
  | response received => exact ⟨received, rfl⟩

theorem instr_eq_response_of_kind (c : WireCmd) {f : WireForm} (h : WireForm.kind f = .parser) :
    ∃ c' received, c.instr f = WireCmd.instr c' (.response received) := by
  obtain ⟨received, rfl⟩ := WireForm.eq_response_of_kind h
  exact ⟨c, received, rfl⟩

/-- R79: what parses is a DECODE or a wire command's response. -/
theorem decode_or_response_of_kind {i : Instr} (h : kind i = .parser) :
    (∃ inp explen, i = .decode inp explen) ∨ ∃ c received, i = WireCmd.instr c (.response received) := by
  cases i with
  | decode inp explen => exact .inl ⟨inp, explen, rfl⟩
  | getPosition f => exact .inr (instr_eq_response_of_kind .getPosition h)
  | moveAbs f => exact .inr (instr_eq_response_of_kind .moveAbs h)
  | sync f => exact .inr (instr_eq_response_of_kind .sync h)
  | gotoDone f => exact .inr (instr_eq_response_of_kind .gotoDone h)
  | abort f => exact .inr (instr_eq_response_of_kind .abort h)
  | setMaxPos f => exact .inr (instr_eq_response_of_kind .setMaxPos h)
  | setSlewLimit f => exact .inr (instr_eq_response_of_kind .setSlewLimit h)
  | fanGet f => exact .inr (instr_eq_response_of_kind .fanGet h)
  | fanSet f => exact .inr (instr_eq_response_of_kind .fanSet h)
  | calGet f => exact .inr (instr_eq_response_of_kind .calGet h)
  | calSet f => exact .inr (instr_eq_response_of_kind .calSet h)
  | tempGet f => exact .inr (instr_eq_response_of_kind .tempGet h)
  | getVersion f => exact .inr (instr_eq_response_of_kind .getVersion h)
  | _ => cases h

/-- R201: the validation and parse is total. -/
theorem parseFrame_total (inp : List Byte) (e : Nat) (s : State) : ∃ t, parseFrame inp e s = .next t := by
  obtain ⟨-, h⟩ | ⟨-, -, -, ⟨-, h⟩ | ⟨-, -, h⟩ | ⟨-, -, -, h⟩ | ⟨-, -, -, -, h⟩ | ⟨-, -, -, -, h⟩⟩ :=
    parseFrame_cases inp e s <;> exact ⟨_, h⟩

/-! ### The statements -/

/-- Settles O31: DECODE answers by `parseFrame_total`, and `Effect.error_cases` says what its errors write; of these,
CONTRACT_ERROR's code is none of 1, 2 and 3. -/
theorem protocolErrorsAreNormalResults : Obligations.ProtocolErrorsAreNormalResults := by
  unfold Obligations.ProtocolErrorsAreNormalResults
  intro s inp explen
  obtain ⟨t, ht⟩ := parseFrame_total inp explen.toNat s
  refine ⟨t, ht, fun hcode => ?_⟩
  have hne : t.status ≠ 0#3 := fun hok => absurd (hok ▸ hcode) (by decide)
  obtain rfl | ⟨-, -, hwrites⟩ := (parseFrame_effect ht).error_cases (by decide) hne
  · exact absurd hcode (show 4#3 ∉ [1#3, 2#3, 3#3] by decide)
  · exact hwrites

/-- Settles O40: the two cases of `Effect.error_cases`, and only a DECODE or a wire response has the second. -/
theorem errorsWriteOnlyTheirFlags : Obligations.ErrorsWriteOnlyTheirFlags := by
  unfold Obligations.ErrorsWriteOnlyTheirFlags
  intro i s t hi h hne
  obtain rfl | ⟨hparser, hfour, hwrites⟩ := (exec_effect h).error_cases (kind_ne_nop hi) hne
  case inl => exact ⟨rfl, fun hfour => absurd rfl hfour⟩
  case inr =>
    rw [if_neg hfour, if_neg hfour]
    exact ⟨hwrites, fun _ => decode_or_response_of_kind hparser⟩

end Sys2Proof.Machine
end

section
/-! PROOF. The decoder and the encoder of request records (spec/30_encoding.md R60, R61, R75, R79; log entries 1 and 2). -/

namespace Sys2Proof

/-! ### Decoding an encoded record -/

/-- Bits 7:4 and 3:0 of the tag of a wire command's record. -/
theorem wireTag_fields : ∀ n < 16,
    ((BitVec.ofNat 8 (0x10 + n)).extractLsb' 4 4).toNat = 1 ∧ ((BitVec.ofNat 8 (0x10 + n)).extractLsb' 0 4).toNat = n ∧
    ((BitVec.ofNat 8 (0x20 + n)).extractLsb' 4 4).toNat = 2 ∧ ((BitVec.ofNat 8 (0x20 + n)).extractLsb' 0 4).toNat = n := by
  decide

theorem recordFormat_bytes (f : RecordFields) : recordFormat (recordBytes f) = (f.first.extractLsb' 4 4).toNat := rfl

theorem recordOp_bytes (f : RecordFields) : recordOp (recordBytes f) = (f.first.extractLsb' 0 4).toNat := rfl

/-- A pseudo-operation whose number is a command's, with an operand that the table allows it. -/
theorem decodeWire_bytes {c : WireCmd} {form : List Byte → WireForm} {f : RecordFields} (hlen : f.inp.length ≤ 255)
    (hc : WireCmd.ofNumber (f.first.extractLsb' 0 4).toNat = some c) (hok : c.formOk (form f.inp) = true) :
    decodeWire form (recordBytes f) = .ok (c.instr (form f.inp)) := by
  rw [decodeWire, recordOp_bytes, hc]
  simp [recordInput_bytes f hlen, hok]

theorem decode_encodeWire {n : Nat} {c : WireCmd} {f : WireForm} (hn : n < 16) (hc : WireCmd.ofNumber n = some c)
    (hok : c.formOk f = true) : decode (encodeWire n f) = .ok (c.instr f) := by
  obtain ⟨hreqFormat, hreqOp, hrspFormat, hrspOp⟩ := wireTag_fields n hn
  cases f with
  | request payload =>
    have hlen : payload.length ≤ 3 := reqLenClass_le c _ (by simpa [WireCmd.formOk] using hok)
    rw [encodeWire, decode, recordFormat_bytes, hreqFormat]
    exact decodeWire_bytes (form := .request) (hlen.trans (by decide)) (by rwa [hreqOp]) hok
  | response received =>
    rw [encodeWire, decode, recordFormat_bytes, hrspFormat]
    exact decodeWire_bytes (form := .response) (of_decide_eq_true hok) (by rwa [hrspOp]) hok

/-- `recordInput_bytes`, with the bound as `Instr.wellFormed` has it. -/
theorem recordInput_of_inputFits {f : RecordFields} (h : inputFits f.inp = true) : recordInput (recordBytes f) = f.inp :=
  recordInput_bytes f (of_decide_eq_true h)

/-- A record of format 0 is the operation that `decodeOp` reads. -/
theorem decode_operation (op : Byte) {f : RecordFields} {i : Instr} (hfirst : f.first = op)
    (hi : decodeOp (recordBytes f) = i) (hop : (op.extractLsb' 4 4).toNat = 0 := by decide) :
    decode (recordBytes f) = .ok i := by
  rw [decode_request_format (by rw [recordFormat_bytes, hfirst, hop]), hi]

/-- The decoder reads back every well-formed instruction: of an operation's record only `IN` and `VAL` are put together
again from more than one byte. -/
theorem decode_encode {i : Instr} (h : i.wellFormed = true) : decode (encode i) = .ok i := by
  cases i with
  | nop => exact decode_operation 0x00#8 rfl rfl
  | ckClear => exact decode_operation 0x01#8 rfl rfl
  | ckAdd inp => exact decode_operation 0x02#8 rfl (congrArg Instr.ckAdd (recordInput_of_inputFits h))
  | ckRead => exact decode_operation 0x03#8 rfl rfl
  | cksum inp => exact decode_operation 0x04#8 rfl (congrArg Instr.cksum (recordInput_of_inputFits h))
  | ckVerify inp => exact decode_operation 0x05#8 rfl (congrArg Instr.ckVerify (recordInput_of_inputFits h))
  | encode src dst cmd inp =>
    exact decode_operation 0x06#8 rfl (congrArg (Instr.encode src dst cmd) (recordInput_of_inputFits h))
  | decode inp explen => exact decode_operation 0x07#8 rfl (congrArg (Instr.decode · explen) (recordInput_of_inputFits h))
  | pack24 val => exact decode_operation 0x08#8 rfl (congrArg Instr.pack24 (valBytes_append val))
  | pack16 val => exact decode_operation 0x09#8 rfl (congrArg Instr.pack16 (valBytes_append val))
  | flagEnc val => exact decode_operation 0x0A#8 rfl (congrArg Instr.flagEnc (valBytes_append val))
  | unpack24u off => exact decode_operation 0x0B#8 rfl rfl
  | unpack24s off => exact decode_operation 0x0C#8 rfl rfl
  | decS12 off => exact decode_operation 0x0D#8 rfl rfl
  | flagDec off => exact decode_operation 0x0E#8 rfl rfl
  | sreset => exact decode_operation 0x0F#8 rfl rfl
  | getPosition f => exact decode_encodeWire (c := .getPosition) (by decide) rfl h
  | moveAbs f => exact decode_encodeWire (c := .moveAbs) (by decide) rfl h
  | sync f => exact decode_encodeWire (c := .sync) (by decide) rfl h
  | gotoDone f => exact decode_encodeWire (c := .gotoDone) (by decide) rfl h
  | abort f => exact decode_encodeWire (c := .abort) (by decide) rfl h
  | setMaxPos f => exact decode_encodeWire (c := .setMaxPos) (by decide) rfl h
  | setSlewLimit f => exact decode_encodeWire (c := .setSlewLimit) (by decide) rfl h
  | fanGet f => exact decode_encodeWire (c := .fanGet) (by decide) rfl h
  | fanSet f => exact decode_encodeWire (c := .fanSet) (by decide) rfl h
  | calGet f => exact decode_encodeWire (c := .calGet) (by decide) rfl h
  | calSet f => exact decode_encodeWire (c := .calSet) (by decide) rfl h
  | tempGet f => exact decode_encodeWire (c := .tempGet) (by decide) rfl h
  | getVersion f => exact decode_encodeWire (c := .getVersion) (by decide) rfl h

/-- Settles O4. -/
theorem decodeOfEncodeIsTheInstruction : Obligations.DecodeOfEncodeIsTheInstruction := by
  unfold Obligations.DecodeOfEncodeIsTheInstruction
  exact fun i => decode_encode

/-! ### Records written out -/

/-- The bytes of a word put together from three bytes are these three. -/
theorem valBytes24_append (b0 b1 b2 : Byte) : Machine.valBytes24 (b2 ++ b1 ++ b0) = [b0, b1, b2] := by
  have h0 := b0.isLt
  have h1 := b1.isLt
  have h2 := b2.isLt
  rw [Machine.valBytes24_eq_digits, Machine.append_bytes24_toNat]
  simp only [List.cons.injEq, and_true, ← BitVec.toNat_inj, BitVec.toNat_ofNat]
  omega

/-- A record with `VAL` given byte by byte, in the layout of log entry 1. -/
theorem recordBytes_append_val (op src dst cmd explen v0 v1 v2 off : Byte) (inp : List Byte) :
    [op, src, dst, cmd, BitVec.ofNat 8 inp.length, explen, v0, v1, v2, off] ++ inp =
      recordBytes { first := op, src, dst, cmd, explen, val := v2 ++ v1 ++ v0, off, inp } := by
  have hdigits := valBytes24_append v0 v1 v2
  simp only [Machine.valBytes24, List.cons.injEq, and_true] at hdigits
  obtain ⟨h0, h1, h2⟩ := hdigits
  simp only [recordBytes, h0, h1, h2]

/-- Settles O1: each value of `OP` is an arm of `decodeOp`, and `recordInput_bytes` and `recordVal_bytes` give the fields
of more than one byte. -/
theorem opValuesSelectTheirOperations : Obligations.OpValuesSelectTheirOperations := by
  unfold Obligations.OpValuesSelectTheirOperations
  intro src dst cmd explen v0 v1 v2 off inp hlen word
  have hword (op : Byte) : word op = _ := recordBytes_append_val op src dst cmd explen v0 v1 v2 off inp
  simp only [hword]
  refine ⟨decode_operation 0x00#8 rfl rfl, decode_operation 0x01#8 rfl rfl,
    decode_operation 0x02#8 rfl (congrArg Instr.ckAdd ?_),
    decode_operation 0x03#8 rfl rfl,
    decode_operation 0x04#8 rfl (congrArg Instr.cksum ?_),
    decode_operation 0x05#8 rfl (congrArg Instr.ckVerify ?_),
    decode_operation 0x06#8 rfl (congrArg (Instr.encode src dst cmd) ?_),
    decode_operation 0x07#8 rfl (congrArg (Instr.decode · explen) ?_),
    decode_operation 0x08#8 rfl (congrArg Instr.pack24 (recordVal_bytes _)),
    decode_operation 0x09#8 rfl (congrArg Instr.pack16 (recordVal_bytes _)),
    decode_operation 0x0A#8 rfl (congrArg Instr.flagEnc (recordVal_bytes _)),
    decode_operation 0x0B#8 rfl rfl, decode_operation 0x0C#8 rfl rfl, decode_operation 0x0D#8 rfl rfl,
    decode_operation 0x0E#8 rfl rfl, decode_operation 0x0F#8 rfl rfl⟩ <;>
  exact recordInput_bytes _ hlen

/-- Settles O2. -/
theorem spelledWordsDecode : Obligations.SpelledWordsDecode := by
  unfold Obligations.SpelledWordsDecode
  exact ⟨rfl, rfl, rfl, rfl, rfl, rfl, rfl, rfl, rfl, rfl, rfl⟩

/-! ### What the decoder reads -/

/-- R41: of `IN`, the decoder reads the `INLEN` bytes from byte 10 on. -/
theorem recordInput_congr {r r' : List Byte} (hlen : recordInlen r = recordInlen r')
    (hbytes : ∀ k, k < (recordInlen r).toNat → recordByte r (10 + k) = recordByte r' (10 + k)) :
    recordInput r = recordInput r' := by
  rw [recordInput, recordInput, ← hlen]
  exact List.map_congr_left fun k hk => hbytes k (List.mem_range.mp hk)

/-- Settles O3: each `OP` value's arm of `decodeOp` names the fields it reads. -/
theorem unreadRequestFieldsHaveNoEffect : Obligations.UnreadRequestFieldsHaveNoEffect := by
  unfold Obligations.UnreadRequestFieldsHaveNoEffect
  intro r r' hformat hformat' hop sameInput
  rw [decode_request_format hformat, decode_request_format hformat']
  have hinp : sameInput → recordInput r = recordInput r' := fun ⟨hlen, hbytes⟩ => recordInput_congr hlen hbytes
  refine ⟨fun h => ?none, fun h hin => ?input, fun h hin hsrc hdst hcmd => ?encode, fun h hin hexp => ?decode,
    fun h hval => ?value, fun h hoff => ?offset⟩
  case none =>
    simp only [List.mem_cons, List.not_mem_nil, or_false] at h
    obtain h | h | h | h := h <;> simp [decodeOp, ← hop, h]
  case input =>
    simp only [List.mem_cons, List.not_mem_nil, or_false] at h
    obtain h | h | h := h <;> simp [decodeOp, ← hop, h, hinp hin]
  case encode => simp [decodeOp, ← hop, h, hinp hin, hsrc, hdst, hcmd]
  case decode => simp [decodeOp, ← hop, h, hinp hin, hexp]
  case value =>
    simp only [List.mem_cons, List.not_mem_nil, or_false] at h
    obtain h | h | h := h <;> simp [decodeOp, ← hop, h, hval]
  case offset =>
    simp only [List.mem_cons, List.not_mem_nil, or_false] at h
    obtain h | h | h | h := h <;> simp [decodeOp, ← hop, h, hoff]

/-! ### What the decoder answers -/

theorem decodeWire_cases {form : List Byte → WireForm} {r : List Byte} {i : Instr} (h : decodeWire form r = .ok i) :
    ∃ c : WireCmd, c.formOk (form (recordInput r)) = true ∧ i = c.instr (form (recordInput r)) := by
  unfold decodeWire at h
  split at h
  · cases h
  next c _ =>
    split at h
    next hok => cases h; exact ⟨c, hok, rfl⟩
    · cases h

/-- Everything the decoder can answer: an operation, or a wire command with an operand the table allows. -/
theorem decode_cases {r : List Byte} {i : Instr} (h : decode r = .ok i) :
    i = decodeOp r ∨ ∃ (c : WireCmd) (f : WireForm), c.formOk f = true ∧ i = c.instr f := by
  unfold decode at h
  split at h
  · cases h; exact .inl rfl
  · obtain ⟨c, hok, rfl⟩ := decodeWire_cases h; exact .inr ⟨c, _, hok, rfl⟩
  · obtain ⟨c, hok, rfl⟩ := decodeWire_cases h; exact .inr ⟨c, _, hok, rfl⟩
  · cases h

theorem decodeOp_wellFormed (r : List Byte) : (decodeOp r).wellFormed = true := by
  have hinp : inputFits (recordInput r) = true := decide_eq_true (recordInput_length_le r)
  unfold decodeOp
  split <;> simp only [Instr.wellFormed, hinp]

/-- Settles O5. -/
theorem decodedInstructionsAreWellFormed : Obligations.DecodedInstructionsAreWellFormed := by
  unfold Obligations.DecodedInstructionsAreWellFormed
  intro r i h
  obtain rfl | ⟨c, f, hok, rfl⟩ := decode_cases h
  · exact decodeOp_wellFormed r
  · rwa [c.instr_formOk]

end Sys2Proof

namespace Sys2Proof.Machine

/-! ### Every operation completes (R75) -/

theorem checked_total {c : Prop} [Decidable c] (s u : State) :
    ∃ t, (if c then contractError s else .next u) = .next t := by
  split <;> exact ⟨_, rfl⟩

theorem extractField_total (off : Byte) (w : Nat) (v : Word32) (s : State) : ∃ t, extractField off w v s = .next t := by
  unfold extractField
  split <;> exact ⟨_, rfl⟩

/-- An operation either completes at once, or checks a bound first, or parses, or extracts a field. -/
theorem exec_decodeOp_total (r : List Byte) (s : State) : ∃ t, exec (decodeOp r) s = .next t := by
  unfold decodeOp
  split
  case h_1 => exact ⟨_, exec_nop s⟩
  case h_2 => exact ⟨_, exec_ckClear s⟩
  case h_3 => exact checked_total s _
  case h_4 => exact ⟨_, exec_ckRead s⟩
  case h_5 => exact checked_total s _
  case h_6 => exact checked_total s _
  case h_7 => exact checked_total s _
  case h_8 => exact parseFrame_total _ _ s
  case h_9 => exact ⟨_, exec_pack24 _ s⟩
  case h_10 => exact checked_total s _
  case h_11 => exact ⟨_, exec_flagEnc _ s⟩
  case h_12 => exact extractField_total _ _ _ s
  case h_13 => exact extractField_total _ _ _ s
  case h_14 => exact extractField_total _ _ _ s
  case h_15 => exact extractField_total _ _ _ s
  case h_16 => exact ⟨_, exec_sreset s⟩

/-- Settles O6. -/
theorem everyOpValueIsAnOperationThatCompletes : Obligations.EveryOpValueIsAnOperationThatCompletes := by
  unfold Obligations.EveryOpValueIsAnOperationThatCompletes
  exact fun r hformat => ⟨decodeOp r, decode_request_format hformat, exec_decodeOp_total r⟩

end Sys2Proof.Machine
end

section
/-! PROOF. One step: which event it takes (spec/10_state.md R31), what it keeps of the registers, and the invariant
(R20, R24, R26, spec/60_exceptions.md R204). -/

namespace Sys2Proof

theorem Params.three_le_maxFrame (p : Params) : 3 ≤ p.maxFrame := by
  have := p.h_ge; simp only [Params.maxFrame]; omega

theorem Params.default_legal : Params.default.Legal where
  maxPayload_ge := show 4 ≤ 16 by decide
  maxPayload_le := show 16 ≤ 249 by decide
  ack_le := Nat.zero_le _
  version_ge := Params.default_versionPayloadLen.1
  version_le := Params.default_versionPayloadLen.2

end Sys2Proof

namespace Sys2Proof.Machine

/-! ### What a step does with each event -/

section
variable {s : State} {rest : List HostEvent}

theorem step_request {r : List Byte} {i : Instr} (hport : s.port = .request r :: rest) (hr : decode r = .ok i) :
    step s = exec i (s.withPort rest) := by
  simp [step, State.fetch, State.consume, hport, hr]

theorem step_badRecord {r : List Byte} {e : DecodeError} (hport : s.port = .request r :: rest)
    (hr : decode r = .error e) : step s = .refused (.badRecord e) := by
  simp [step, State.fetch, hport, hr]

theorem step_hardwareReset (hport : s.port = .hardwareReset :: rest) :
    step s = .next (s.withPort rest).hardwareReset := by
  simp [step, State.fetch, State.consume, hport]

theorem step_idle (hport : s.port = []) : step s = .next s := by
  simp [step, State.fetch, hport]

end

/-- Settles O7. -/
theorem stepRunsTheDecodedInstruction : Obligations.StepRunsTheDecodedInstruction := by
  unfold Obligations.StepRunsTheDecodedInstruction
  exact ⟨fun s r rest i => step_request, fun s r rest e => step_badRecord, fun s => step_idle⟩

/-! ### `FAULT` is cleared by a hardware reset alone (R204, R230) -/

/-- No instruction clears `FAULT`. -/
theorem Effect.fault_of_fault {k : Kind} {s t : State} (h : Effect k s t) (hs : s.fault = true) : t.fault = true := by
  cases h with
  | unchanged => exact hs
  | reset => exact hs
  | accumulate => exact hs
  | result => exact hs
  | write => exact hs
  | protocolError e => cases e <;> simp [faultAfter, hs]
  | parseContract => rfl
  | accept => exact hs
  | contract => rfl

theorem exec_fault_of_fault {i : Instr} {s t : State} (h : exec i s = .next t) (hs : s.fault = true) : t.fault = true :=
  (exec_effect h).fault_of_fault hs

theorem step_clears_fault {s t : State} (h : step s = .next t) (hs : s.fault = true) (ht : t.fault = false) :
    ∃ rest, s.port = .hardwareReset :: rest := by
  obtain ⟨-, rfl⟩ | ⟨rest, hport, -⟩ | ⟨r, rest, i, -, -, hexec⟩ := step_cases h
  · simp [hs] at ht
  · exact ⟨rest, hport⟩
  · simp [exec_fault_of_fault hexec hs] at ht

/-- Settles O9. -/
theorem hardwareResetAloneClearsFault : Obligations.HardwareResetAloneClearsFault := by
  unfold Obligations.HardwareResetAloneClearsFault
  exact ⟨fun s rest hport => step_hardwareReset hport, fun s t => step_clears_fault⟩

/-! ### The invariant, update by update -/

theorem State.atReset_inv {p : Params} (hp : p.Legal) : (State.atReset p).Inv where
  legal := hp
  obuf_length := List.length_replicate
  olen_le := Nat.zero_le _
  obuf_zero _ hb := List.eq_of_mem_replicate (List.mem_of_mem_drop hb)
  payload_length := List.length_replicate
  plen_le := Nat.zero_le _
  payload_zero _ hb := List.eq_of_mem_replicate (List.mem_of_mem_drop hb)
  status_le := Nat.zero_le _
  contract_fault h := absurd h (show 0#3 ≠ 4#3 by decide)

/-- Settles O11. -/
theorem resetMeetsTheInvariant : Obligations.ResetMeetsTheInvariant := by
  unfold Obligations.ResetMeetsTheInvariant
  exact State.atReset_inv Params.default_legal

/-- A list of at most 255 bytes is counted by a byte. -/
theorem toNat_ofNat_byte {n : Nat} (h : n ≤ 255) : (BitVec.ofNat 8 n).toNat = n :=
  (BitVec.toNat_ofNat n 8).trans (Nat.mod_eq_of_lt (by omega))

section
variable {s : State}

theorem Status.code_toNat_le (e : Status) : e.code.toNat ≤ 4 := by
  cases e <;> decide

theorem State.Inv.withPort (hs : s.Inv) (rest : List HostEvent) : (s.withPort rest).Inv := { hs with }

theorem State.Inv.setAcc (hs : s.Inv) (v : Byte) : (s.setAcc v).Inv := { hs with }

theorem State.Inv.setResult (hs : s.Inv) (v : Word32) : (s.setResult v).Inv := { hs with }

theorem State.Inv.hardwareReset (hs : s.Inv) : s.hardwareReset.Inv := (State.atReset_inv hs.legal).withPort s.port

theorem State.Inv.complete (hs : s.Inv) : s.complete.Inv :=
  { hs with
    status_le := Nat.zero_le _
    contract_fault := fun h => absurd h (show 0#3 ≠ 4#3 by decide) }

theorem State.Inv.softReset (hs : s.Inv) : s.softReset.Inv :=
  { hs.hardwareReset with contract_fault := fun h => absurd h (show 0#3 ≠ 4#3 by decide) }

/-- CONTRACT_ERROR is raised together with `FAULT` (R204). -/
theorem State.Inv.raise (hs : s.Inv) (byDecode : Bool) (e : Status) : (s.raise byDecode e).Inv :=
  { hs with
    status_le := e.code_toNat_le
    contract_fault := by cases e <;> simp [Status.code, faultAfter] }

theorem State.Inv.writeOut (hs : s.Inv) {bs : List Byte} (hbs : bs.length ≤ s.params.maxFrame) : (s.writeOut bs).Inv :=
  have holen : (s.writeOut bs).olen.toNat = bs.length := toNat_ofNat_byte (hbs.trans hs.legal.maxFrame_le)
  { hs with
    obuf_length := padTo_length hbs
    olen_le := holen.trans_le hbs
    obuf_zero := by rw [holen]; exact padTo_drop_zero }

/-- The payload of an accepted frame has at most `MAX_PAYLOAD` bytes, since the frame has at most `MAX_FRAME` (R140). -/
theorem State.Inv.acceptFrame (hs : s.Inv) {inp : List Byte} (hinp : inp.length ≤ s.params.maxFrame) :
    (s.acceptFrame inp).Inv :=
  have hmax : s.params.maxPayload ≤ 249 := hs.legal.maxPayload_le
  have hn : inp.length - s.params.h - 1 ≤ s.params.maxPayload := by simp only [Params.maxFrame] at hinp; omega
  have hplen : (s.acceptFrame inp).rxfPlen.toNat = inp.length - s.params.h - 1 := toNat_ofNat_byte (by omega)
  have hpayload : ((inp.drop s.params.h).take (inp.length - s.params.h - 1)).length = inp.length - s.params.h - 1 := by
    rw [List.length_take, List.length_drop]; omega
  { hs with
    payload_length := padTo_length (by rwa [hpayload])
    plen_le := hplen.trans_le hn
    payload_zero := by rw [hplen, ← hpayload]; exact padTo_drop_zero }

/-- Every update that an instruction can make keeps the invariant. -/
theorem Effect.inv {k : Kind} {t : State} (h : Effect k s t) (hs : s.Inv) : t.Inv := by
  cases h with
  | unchanged => exact hs
  | reset => exact hs.softReset.complete
  | accumulate v => exact (hs.setAcc v).complete
  | result v => exact (hs.setResult v).complete
  | write bs _ hbs => exact (hs.writeOut (hbs.elim (le_trans · s.params.three_le_maxFrame) id)).complete
  | protocolError e => exact hs.raise true e
  | parseContract => exact hs.raise true _
  | accept inp _ hinp => exact (hs.acceptFrame hinp).complete
  | contract => exact hs.raise false _

end

theorem step_inv {s t : State} (hs : s.Inv) (h : step s = .next t) : t.Inv := by
  obtain ⟨-, rfl⟩ | ⟨rest, -, rfl⟩ | ⟨r, rest, i, -, -, hexec⟩ := step_cases h
  · exact hs
  · exact (hs.withPort rest).hardwareReset
  · exact (exec_effect hexec).inv (hs.withPort rest)

/-- Settles O12: a step is idle, a reset or an instruction, and each update that makes up one of these keeps the
invariant. -/
theorem stepKeepsTheInvariant : Obligations.StepKeepsTheInvariant := by
  unfold Obligations.StepKeepsTheInvariant
  exact fun s t => step_inv

end Sys2Proof.Machine
end

section
/-! PROOF. What the operations of each kind write (spec/10_state.md R20 to R26), the errors each can raise
(spec/60_exceptions.md R206), and the sticky `FAULT` (R204). -/

namespace Sys2Proof.Machine

/-! ### The instructions of each kind -/

theorem WireForm.kind_ne {k : Kind} (houtput : k ≠ .output) (hparser : k ≠ .parser) (f : WireForm) :
    WireForm.kind f ≠ k := by
  cases f with
  | request payload => exact houtput.symm
  | response received => exact hparser.symm

theorem eq_sreset_of_kind {i : Instr} (h : kind i = .reset) : i = .sreset := by
  cases i with
  | sreset => rfl
  | _ => simp [kind, WireForm.kind_ne] at h

theorem accumulator_of_kind {i : Instr} (h : kind i = .accumulator) : i = .ckClear ∨ ∃ inp, i = .ckAdd inp := by
  cases i with
  | ckClear => exact .inl rfl
  | ckAdd inp => exact .inr ⟨inp, rfl⟩
  | _ => simp [kind, WireForm.kind_ne] at h

theorem scalar_of_kind {i : Instr} (h : kind i = .scalar) :
    i = .ckRead ∨ (∃ inp, i = .cksum inp) ∨ (∃ inp, i = .ckVerify inp) ∨ (∃ off, i = .unpack24u off) ∨
      (∃ off, i = .unpack24s off) ∨ (∃ off, i = .decS12 off) ∨ ∃ off, i = .flagDec off := by
  cases i with
  | ckRead => simp
  | cksum => simp
  | ckVerify => simp
  | unpack24u => simp
  | unpack24s => simp
  | decS12 => simp
  | flagDec => simp
  | _ => simp [kind, WireForm.kind_ne] at h

theorem instr_eq_request_of_kind (c : WireCmd) {f : WireForm} (h : WireForm.kind f = .output) :
    ∃ c' payload, c.instr f = WireCmd.instr c' (.request payload) := by
  cases f with
  | request payload => exact ⟨c, payload, rfl⟩
  | response received => cases h

theorem output_of_kind {i : Instr} (h : kind i = .output) :
    (∃ src dst cmd inp, i = .encode src dst cmd inp) ∨ (∃ v, i = .pack24 v) ∨ (∃ v, i = .pack16 v) ∨
      (∃ v, i = .flagEnc v) ∨ ∃ c payload, i = WireCmd.instr c (.request payload) := by
  cases i with
  | encode => simp
  | pack24 => simp
  | pack16 => simp
  | flagEnc => simp
  | getPosition f => exact .inr (.inr (.inr (.inr (instr_eq_request_of_kind .getPosition h))))
  | moveAbs f => exact .inr (.inr (.inr (.inr (instr_eq_request_of_kind .moveAbs h))))
  | sync f => exact .inr (.inr (.inr (.inr (instr_eq_request_of_kind .sync h))))
  | gotoDone f => exact .inr (.inr (.inr (.inr (instr_eq_request_of_kind .gotoDone h))))
  | abort f => exact .inr (.inr (.inr (.inr (instr_eq_request_of_kind .abort h))))
  | setMaxPos f => exact .inr (.inr (.inr (.inr (instr_eq_request_of_kind .setMaxPos h))))
  | setSlewLimit f => exact .inr (.inr (.inr (.inr (instr_eq_request_of_kind .setSlewLimit h))))
  | fanGet f => exact .inr (.inr (.inr (.inr (instr_eq_request_of_kind .fanGet h))))
  | fanSet f => exact .inr (.inr (.inr (.inr (instr_eq_request_of_kind .fanSet h))))
  | calGet f => exact .inr (.inr (.inr (.inr (instr_eq_request_of_kind .calGet h))))
  | calSet f => exact .inr (.inr (.inr (.inr (instr_eq_request_of_kind .calSet h))))
  | tempGet f => exact .inr (.inr (.inr (.inr (instr_eq_request_of_kind .tempGet h))))
  | getVersion f => exact .inr (.inr (.inr (.inr (instr_eq_request_of_kind .getVersion h))))
  | _ => cases h

/-! ### The writers of each register (R20) -/

section
variable {k : Kind} {s t : State}

theorem Effect.port (h : Effect k s t) : t.port = s.port := by
  cases h <;> rfl

theorem exec_port {i : Instr} (h : exec i s = .next t) : t.port = s.port := (exec_effect h).port

theorem Effect.kind_of_acc_ne (h : Effect k s t) (hne : t.acc ≠ s.acc) : k = .accumulator ∨ k = .reset := by
  cases h with
  | accumulate _ hk => exact .inl hk
  | reset hk => exact .inr hk
  | _ => exact absurd rfl hne

theorem Effect.kind_of_output_ne (h : Effect k s t) (hne : t.obuf ≠ s.obuf ∨ t.olen ≠ s.olen) :
    k = .reset ∨ k = .output := by
  cases h with
  | reset hk => exact .inl hk
  | write _ hk => exact .inr hk
  | _ => exact absurd hne (by simp)

theorem Effect.kind_of_result_ne (h : Effect k s t) (hne : t.result ≠ s.result) : k = .reset ∨ k = .scalar := by
  cases h with
  | reset hk => exact .inl hk
  | result _ hk => exact .inr hk
  | _ => exact absurd rfl hne

theorem Effect.kind_of_rxfValid_ne (h : Effect k s t) (hne : t.rxfValid ≠ s.rxfValid) : k = .reset ∨ k = .parser := by
  cases h with
  | reset hk => exact .inl hk
  | protocolError _ hk => exact .inr hk
  | accept _ hk => exact .inr hk
  | _ => exact absurd rfl hne

/-- The fields of a frame are written with the frame's acceptance only. -/
theorem Effect.kind_of_rxf_ne (h : Effect k s t)
    (hne : t.rxfSrc ≠ s.rxfSrc ∨ t.rxfDst ≠ s.rxfDst ∨ t.rxfCmd ≠ s.rxfCmd ∨ t.rxfPlen ≠ s.rxfPlen ∨
      t.rxfPayload ≠ s.rxfPayload) : k = .reset ∨ (k = .parser ∧ t.status = 0#3) := by
  cases h with
  | reset hk => exact .inl hk
  | accept _ hk => exact .inr ⟨hk, rfl⟩
  | _ => exact absurd hne (by simp)

theorem faultAfter_eq_of_ne {e : Status} (he : e ≠ .contractError) (fault : Bool) : faultAfter e fault = fault := by
  cases e with
  | contractError => exact absurd rfl he
  | _ => rfl

/-- `FAULT` is set with CONTRACT_ERROR in `STATUS` only (R202). -/
theorem Effect.contract_of_fault_ne (h : Effect k s t) (hne : t.fault ≠ s.fault) :
    t.status = 4#3 ∧ t.fault = true := by
  cases h with
  | protocolError e _ _ hcontract => exact absurd (faultAfter_eq_of_ne hcontract s.fault) hne
  | parseContract => exact ⟨rfl, rfl⟩
  | contract => exact ⟨rfl, rfl⟩
  | _ => exact absurd rfl hne

end

/-- Settles O43: each register's column is the kinds of its writers, and each kind is a list of instructions. -/
theorem registersHaveOnlyTheirWriters : Obligations.RegistersHaveOnlyTheirWriters := by
  unfold Obligations.RegistersHaveOnlyTheirWriters
  intro i s t h decodes
  have heffect := exec_effect h
  refine ⟨fun hne => ?acc, fun hne hi => ?status, heffect.contract_of_fault_ne, fun hne => ?output, fun hne => ?result,
    fun hne => ?rxfValid, fun hne => ?rxf, heffect.params, heffect.port⟩
  case acc =>
    obtain hk | hk := heffect.kind_of_acc_ne hne
    · exact (accumulator_of_kind hk).imp_right .inr
    · exact .inr (.inl (eq_sreset_of_kind hk))
  case status =>
    subst hi
    exact hne (congrArg State.status (Host.Outcome.next.inj h).symm)
  case output => exact (heffect.kind_of_output_ne hne).imp eq_sreset_of_kind output_of_kind
  case result => exact (heffect.kind_of_result_ne hne).imp eq_sreset_of_kind scalar_of_kind
  case rxfValid => exact (heffect.kind_of_rxfValid_ne hne).imp eq_sreset_of_kind decode_or_response_of_kind
  case rxf =>
    exact (heffect.kind_of_rxf_ne hne).imp eq_sreset_of_kind (.imp_left decode_or_response_of_kind)

/-! ### The frame of each kind -/

section
variable {s t : State}

theorem Effect.scalar_frame (h : Effect .scalar s t) :
    t = { s with result := t.result, status := t.status, fault := t.fault } ∧
    (t.status = 0#3 ∧ t.fault = s.fault ∨ t.status = 4#3 ∧ t.fault = true ∧ t.result = s.result) := by
  cases h with
  | result v => exact ⟨rfl, .inl ⟨rfl, rfl⟩⟩
  | contract => exact ⟨rfl, .inr ⟨rfl, rfl, rfl⟩⟩
  | _ => contradiction

/-- A write of the output buffer fits `MAX_FRAME` bytes and leaves zeros past it (R24). -/
theorem Effect.output_frame (hs : s.params.Legal) (h : Effect .output s t) :
    t = { s with obuf := t.obuf, olen := t.olen, status := t.status, fault := t.fault } ∧
    (t.status = 4#3 ∧ t.fault = true ∧ t.obuf = s.obuf ∧ t.olen = s.olen ∨
      t.status = 0#3 ∧ t.fault = s.fault ∧ t.obuf.length = s.params.maxFrame ∧ t.olen.toNat ≤ s.params.maxFrame ∧
        ∀ k, t.olen.toNat ≤ k → t.obuf.getD k 0x00#8 = 0x00#8) := by
  cases h with
  | write bs _ hbs =>
    have hfits : bs.length ≤ s.params.maxFrame := hbs.elim (le_trans · s.params.three_le_maxFrame) id
    have holen : (s.writeOut bs).complete.olen.toNat = bs.length := toNat_ofNat_byte (hfits.trans hs.maxFrame_le)
    rw [holen]
    exact ⟨rfl, .inr ⟨rfl, rfl, padTo_length hfits, hfits, fun k => padTo_getD_zero⟩⟩
  | contract => exact ⟨rfl, .inl ⟨rfl, rfl, rfl, rfl⟩⟩
  | _ => contradiction

theorem Status.code_mem_protocol {e : Status} (hok : e ≠ .ok) (hcontract : e ≠ .contractError) :
    e.code ∈ [1#3, 2#3, 3#3] := by
  cases e with
  | ok => exact absurd rfl hok
  | contractError => exact absurd rfl hcontract
  | _ => decide

theorem Effect.parser_frame (h : Effect .parser s t) :
    t = { s with
      rxfValid := t.rxfValid, rxfSrc := t.rxfSrc, rxfDst := t.rxfDst, rxfCmd := t.rxfCmd
      rxfPlen := t.rxfPlen, rxfPayload := t.rxfPayload, status := t.status, fault := t.fault } ∧
    (t.status = 0#3 ∧ t.rxfValid = true ∧ t.fault = s.fault ∨
      t.status ∈ [1#3, 2#3, 3#3] ∧ t = { s with status := t.status, rxfValid := false } ∨
      t.status = 4#3 ∧ t = { s with status := 4#3, fault := true }) := by
  cases h with
  | protocolError e _ hok hcontract =>
    exact ⟨rfl, .inr (.inl ⟨Status.code_mem_protocol hok hcontract, State.raise_protocolError s hok hcontract⟩)⟩
  | parseContract => exact ⟨rfl, .inr (.inr ⟨rfl, State.raise_contractError s true⟩)⟩
  | accept inp => exact ⟨rfl, .inl ⟨rfl, rfl, rfl⟩⟩
  | contract hk => simp at hk
  | _ => contradiction

theorem Effect.accumulator_frame (h : Effect .accumulator s t) :
    t = { s with acc := t.acc, status := t.status, fault := t.fault } ∧
    (t.status = 0#3 ∧ t.fault = s.fault ∨ t.status = 4#3 ∧ t.fault = true ∧ t.acc = s.acc) := by
  cases h with
  | accumulate v => exact ⟨rfl, .inl ⟨rfl, rfl⟩⟩
  | contract => exact ⟨rfl, .inr ⟨rfl, rfl, rfl⟩⟩
  | _ => contradiction

/-- `exec_effect`, with the kind of the instruction given. -/
theorem exec_effect_of_kind {i : Instr} {k : Kind} (hk : kind i = k) (h : exec i s = .next t) : Effect k s t :=
  hk ▸ exec_effect h

end

/-- Settles O44. -/
theorem scalarOperationsFrame : Obligations.ScalarOperationsFrame := by
  unfold Obligations.ScalarOperationsFrame
  intro i s t inp off hi h
  have hk : kind i = .scalar := by
    simp only [List.mem_cons, List.not_mem_nil, or_false] at hi
    obtain rfl | rfl | rfl | rfl | rfl | rfl | rfl := hi <;> rfl
  exact (exec_effect_of_kind hk h).scalar_frame

/-- Settles O45. -/
theorem outputOperationsFrame : Obligations.OutputOperationsFrame := by
  unfold Obligations.OutputOperationsFrame
  intro i s t hs hi h
  have hk : kind i = .output := by
    obtain ⟨src, dst, cmd, inp, rfl⟩ | ⟨v, rfl⟩ | ⟨v, rfl⟩ | ⟨v, rfl⟩ | ⟨c, payload, rfl⟩ := hi
    case inr.inr.inr.inr => exact kind_instr c _
    all_goals rfl
  exact (exec_effect_of_kind hk h).output_frame hs

/-- Settles O46. -/
theorem parserOperationsFrame : Obligations.ParserOperationsFrame := by
  unfold Obligations.ParserOperationsFrame
  intro i s t hi h
  have hk : kind i = .parser := by
    obtain ⟨inp, explen, rfl⟩ | ⟨c, received, rfl⟩ := hi
    · rfl
    · exact kind_instr c _
  exact (exec_effect_of_kind hk h).parser_frame

/-- Settles O47. -/
theorem accumulatorAndResetFrame : Obligations.AccumulatorAndResetFrame := by
  unfold Obligations.AccumulatorAndResetFrame
  refine fun s t => ⟨fun i hi h => ?accumulator, fun h => ?sreset⟩
  case accumulator =>
    have hk : kind i = .accumulator := by obtain rfl | ⟨inp, rfl⟩ := hi <;> rfl
    exact (exec_effect_of_kind hk h).accumulator_frame
  case sreset =>
    obtain rfl := Host.Outcome.next.inj h
    exact ⟨rfl, rfl, rfl⟩

/-! ### The errors of each operation (R206) -/

/-- Settles O41: `errorCode` is R206's table row by row, and `exec_status` says that `STATUS` ends with it. -/
theorem errorsEachOperationCanRaise : Obligations.ErrorsEachOperationCanRaise := by
  unfold Obligations.ErrorsEachOperationCanRaise
  refine fun s t => ⟨fun h => ?nop, fun i hi h => ?none, fun inp i hi h => ?input, fun src dst cmd inp h => ?encode,
    fun v h => ?pack16, fun off iw hiw h => ?extractor, fun inp explen h => ?decode⟩
  case nop =>
    obtain rfl := Host.Outcome.next.inj h
    exact ⟨rfl, rfl⟩
  case none =>
    simp only [List.mem_cons, List.not_mem_nil, or_false] at hi
    obtain (rfl | rfl | rfl) | ⟨v, rfl⟩ | ⟨v, rfl⟩ := hi <;> exact exec_status (by simp) h
  case input =>
    simp only [List.mem_cons, List.not_mem_nil, or_false] at hi
    obtain rfl | rfl | rfl := hi <;> exact exec_status (by simp) h
  case encode => exact exec_status (by simp) h
  case pack16 => exact exec_status (by simp) h
  case extractor =>
    simp only [List.mem_cons, List.not_mem_nil, or_false] at hiw
    obtain rfl | rfl | rfl | rfl := hiw <;> exact exec_status (by simp) h
  case decode => exact exec_status (by simp) h

end Sys2Proof.Machine
end

section
/-! PROOF. Runs (spec/70_reset_and_hazards.md R240): the sticky `FAULT` (spec/60_exceptions.md R204) and the registers that
an operation neither reads nor writes. -/

namespace Sys2Proof.Machine

/-! ### Operations in a state with one register changed -/

section
variable {g : State → State} {s t : State}

/-- Two tests of one condition with corresponding branches have corresponding outcomes. -/
theorem ite_next_map {c : Prop} [Decidable c] {x y x' y' : Host.Outcome State Fault Refusal}
    (hx : x = .next t → x' = .next (g t)) (hy : y = .next t → y' = .next (g t))
    (h : (if c then x else y) = .next t) : (if c then x' else y') = .next (g t) := by
  split at h
  next hc => rw [if_pos hc]; exact hx h
  next hc => rw [if_neg hc]; exact hy h

theorem next_map {u u' : State} (hu : u' = g u) (h : Host.Outcome.next (φ := Fault) (ρ := Refusal) u = .next t) :
    Host.Outcome.next (φ := Fault) (ρ := Refusal) u' = .next (g t) := by
  obtain rfl := Host.Outcome.next.inj h
  rw [hu]

/-- An operation that checks a bound and then writes, where `g` changes nothing that the write does. -/
theorem checked_map {c : Prop} [Decidable c] {u : State}
    (hraise : (g s).raise false .contractError = g (s.raise false .contractError))
    (h : (if c then contractError s else .next u) = .next t) :
    (if c then contractError (g s) else .next (g u)) = .next (g t) :=
  ite_next_map (next_map hraise) (next_map rfl) h

/-- A parse where `g` changes no parameter, and no register that the parse writes. -/
theorem parseFrame_map {inp : List Byte} {e : Nat} (hparams : (g s).params = s.params)
    (hraise : ∀ e, (g s).raise true e = g (s.raise true e))
    (haccept : ((g s).acceptFrame inp).complete = g (s.acceptFrame inp).complete)
    (h : parseFrame inp e s = .next t) : parseFrame inp e (g s) = .next (g t) := by
  have herror (e : Status) : decodeError s e = .next t → decodeError (g s) e = .next (g t) := next_map (hraise e)
  unfold parseFrame at h ⊢
  rw [hparams]
  exact ite_next_map (herror _) (ite_next_map (herror _) (ite_next_map (herror _) (ite_next_map (herror _)
    (ite_next_map (herror _) (next_map haccept))))) h

end

/-! ### `FAULT` hinders no operation (R204) -/

/-- The state with `FAULT` set. -/
def State.withFault (s : State) : State := { s with fault := true }

theorem State.raise_withFault (s : State) (byDecode : Bool) (e : Status) :
    s.withFault.raise byDecode e = (s.raise byDecode e).withFault := by
  cases e <;> rfl

theorem execWire_withFault {c : WireCmd} {f : WireForm} {s t : State} (h : execWire c f s = .next t) :
    execWire c f s.withFault = .next t.withFault := by
  cases f with
  | request payload =>
    obtain ⟨hlen, hbuild⟩ := sendRequest_cases h
    exact (if_pos hlen).trans (checked_map rfl hbuild)
  | response received => exact parseFrame_map rfl (s.raise_withFault true) rfl h

theorem extractField_withFault {off : Byte} {w : Nat} {v : Word32} {s t : State} (h : extractField off w v s = .next t) :
    extractField off w v s.withFault = .next t.withFault :=
  ite_next_map (next_map rfl) (next_map rfl) h

/-- No operation reads `FAULT`, and none writes it but to set it. -/
theorem exec_withFault {i : Instr} {s t : State} (h : exec i s = .next t) : exec i s.withFault = .next t.withFault := by
  cases i with
  | nop => exact next_map rfl h
  | ckClear => exact next_map rfl h
  | ckAdd inp => exact checked_map (g := State.withFault) rfl h
  | ckRead => exact next_map rfl h
  | cksum inp => exact checked_map (g := State.withFault) rfl h
  | ckVerify inp => exact checked_map (g := State.withFault) rfl h
  | encode src dst cmd inp => exact checked_map (g := State.withFault) rfl h
  | decode inp e => exact parseFrame_map rfl (s.raise_withFault true) rfl h
  | pack24 v => exact next_map rfl h
  | pack16 v => exact checked_map (g := State.withFault) rfl h
  | flagEnc v => exact next_map rfl h
  | unpack24u off => exact extractField_withFault h
  | unpack24s off => exact extractField_withFault h
  | decS12 off => exact extractField_withFault h
  | flagDec off => exact extractField_withFault h
  | sreset => exact next_map (u := s.softReset.complete) rfl h
  | getPosition f => exact execWire_withFault h
  | moveAbs f => exact execWire_withFault h
  | sync f => exact execWire_withFault h
  | gotoDone f => exact execWire_withFault h
  | abort f => exact execWire_withFault h
  | setMaxPos f => exact execWire_withFault h
  | setSlewLimit f => exact execWire_withFault h
  | fanGet f => exact execWire_withFault h
  | fanSet f => exact execWire_withFault h
  | calGet f => exact execWire_withFault h
  | calSet f => exact execWire_withFault h
  | tempGet f => exact execWire_withFault h
  | getVersion f => exact execWire_withFault h

/-! ### `FAULT` over a run without a hardware reset -/

/-- A run of `j + k` steps goes on from where its first `j` end. -/
theorem run_add {j : Nat} (k : Nat) {s t : State} (h : run j s = .next t) : run (j + k) s = run k t := by
  induction j generalizing s with
  | zero => obtain rfl := Host.Outcome.next.inj h; rw [Nat.zero_add]
  | succ j ih =>
    obtain ⟨u, hstep, hrun⟩ := run_succ_cases h
    rw [Nat.succ_add, run_next (j + k) hstep, ih hrun]

/-- A step takes at most the first event of the port. -/
theorem step_port_subset {s t : State} (h : step s = .next t) : t.port ⊆ s.port := by
  obtain ⟨-, rfl⟩ | ⟨rest, hport, rfl⟩ | ⟨r, rest, i, hport, -, hexec⟩ := step_cases h
  · exact List.Subset.refl _
  · rw [hport]; exact List.subset_cons_self _ rest
  · rw [hport, exec_port hexec]; exact List.subset_cons_self _ rest

theorem run_port_subset {k : Nat} {s t : State} (h : run k s = .next t) : t.port ⊆ s.port := by
  induction k generalizing s with
  | zero => obtain rfl := Host.Outcome.next.inj h; exact List.Subset.refl _
  | succ k ih =>
    obtain ⟨u, hstep, hrun⟩ := run_succ_cases h
    exact List.Subset.trans (ih hrun) (step_port_subset hstep)

theorem run_fault_of_fault {k : Nat} {s t : State} (hreset : .hardwareReset ∉ s.port) (h : run k s = .next t)
    (hs : s.fault = true) : t.fault = true := by
  induction k generalizing s with
  | zero => obtain rfl := Host.Outcome.next.inj h; exact hs
  | succ k ih =>
    obtain ⟨u, hstep, hrun⟩ := run_succ_cases h
    refine ih (fun hmem => hreset (step_port_subset hstep hmem)) hrun ?_
    by_contra hu
    obtain ⟨rest, hport⟩ := step_clears_fault hstep hs (Bool.eq_false_of_not_eq_true hu)
    exact hreset (by simp [hport])

/-- Settles O42. -/
theorem faultIsSticky : Obligations.FaultIsSticky := by
  unfold Obligations.FaultIsSticky
  refine ⟨fun i s t hi h hfour => ?sets, fun i s t => exec_fault_of_fault, fun i s t => exec_withFault,
    fun s t => step_clears_fault, fun j k s t hjk hreset hj ⟨u, hk, hu⟩ => ?visible⟩
  case sets =>
    obtain rfl | ⟨-, hne, -⟩ := (exec_effect h).error_cases (kind_ne_nop hi) (by simp [hfour])
    · rfl
    · exact absurd hfour hne
  case visible =>
    by_contra ht
    obtain ⟨m, rfl⟩ := Nat.exists_eq_add_of_le hjk
    rw [run_add m hj] at hk
    have hreset' : .hardwareReset ∉ t.port := fun hmem => hreset (run_port_subset hj hmem)
    exact absurd (run_fault_of_fault hreset' hk (Bool.eq_true_of_not_eq_false ht)) (by simp [show u.fault = false from hu])

end Sys2Proof.Machine
end

section
/-! PROOF. The accumulator over steps and runs (spec/10_state.md R21, spec/40_checksum.md R108). -/

namespace Sys2Proof.Machine

/-! ### The sum mod 256 of a byte sequence -/

/-- What `ACC` holds after the bytes `bs` (R21). -/
def runningSum (bs : List Byte) : Byte := BitVec.ofNat 8 (byteSum bs % 256)

theorem runningSum_eq (bs : List Byte) : runningSum bs = BitVec.ofNat 8 (byteSum bs) := by
  apply BitVec.eq_of_toNat_eq
  simp [runningSum]

theorem runningSum_toNat (bs : List Byte) : (runningSum bs).toNat = byteSum bs % 256 := by
  rw [runningSum, BitVec.toNat_ofNat]; omega

/-- CK_ADD's formula carries the sum of what came before to that of both. -/
theorem runningSum_append (as bs : List Byte) :
    BitVec.ofNat 8 (((runningSum as).toNat + byteSum bs) % 256) = runningSum (as ++ bs) := by
  rw [runningSum_toNat, runningSum, byteSum_append, Nat.mod_add_mod]

/-- CK_READ's formula of the sum is the checksum. -/
theorem checksum_of_runningSum (bs : List Byte) :
    BitVec.ofNat 32 ((256 - (runningSum bs).toNat) % 256) = (checksum bs).setWidth 32 := by
  rw [runningSum_toNat, checksum_setWidth]

/-! ### `ACC` after an instruction and after a step -/

theorem addedBytes_of_ne_ckAdd {p : Params} {i : Instr} (hi : ∀ inp, i ≠ .ckAdd inp) : addedBytes p i = [] := by
  cases i with
  | ckAdd inp => exact absurd rfl (hi inp)
  | _ => rfl

/-- Where `ACC` is the sum of `L`, CK_ADD leaves the sum of `L` and the bytes it adds: none where it raises an error. -/
theorem exec_ckAdd_runningSum {inp : List Byte} {s t : State} {L : List Byte} (hs : s.acc = runningSum L)
    (h : exec (.ckAdd inp) s = .next t) : t.acc = runningSum (L ++ addedBytes s.params (.ckAdd inp)) := by
  simp only [addedBytes]
  by_cases hlen : inp.length ≤ s.params.maxFrame
  · rw [if_pos hlen, ← runningSum_append, ← hs]
    exact congrArg State.acc (Host.Outcome.next.inj ((exec_ckAdd hlen).symm.trans h)).symm
  · rw [if_neg hlen, List.append_nil, ← hs]
    have hcontract := exec_checksumOp_contract (i := .ckAdd inp) (by simp) (Nat.lt_of_not_le hlen)
    obtain rfl := Host.Outcome.next.inj (hcontract.symm.trans h)
    rfl

/-- Where `ACC` is the sum of `L`, an instruction leaves the sum of what it clears or adds to. -/
theorem exec_runningSum {i : Instr} {s t : State} {L : List Byte} (hs : s.acc = runningSum L) (h : exec i s = .next t) :
    t.acc = runningSum (if i = .ckClear ∨ i = .sreset then [] else L ++ addedBytes s.params i) := by
  by_cases hclear : i = .ckClear ∨ i = .sreset
  · rw [if_pos hclear]
    obtain rfl | rfl := hclear <;> exact congrArg State.acc (Host.Outcome.next.inj h).symm
  rw [if_neg hclear]
  by_cases hadd : ∃ inp, i = .ckAdd inp
  · obtain ⟨inp, rfl⟩ := hadd
    exact exec_ckAdd_runningSum hs h
  · have hacc : t.acc = s.acc := by
      by_contra hne
      obtain hk | hk := (exec_effect h).kind_of_acc_ne hne
      · exact (accumulator_of_kind hk).elim (fun hi => hclear (.inl hi)) hadd
      · exact hclear (.inr (eq_sreset_of_kind hk))
    rw [addedBytes_of_ne_ckAdd (by simpa using hadd), List.append_nil, hacc, hs]

/-- Settles O59. -/
theorem stepKeepsTheRunningSum : Obligations.StepKeepsTheRunningSum := by
  unfold Obligations.StepKeepsTheRunningSum
  intro s t L sum hs h
  refine ⟨fun hport => ?idle, fun rest hport => ?reset, fun r rest i hport hr => ?instruction⟩
  case idle =>
    obtain rfl := Host.Outcome.next.inj ((step_idle hport).symm.trans h)
    exact hs
  case reset => exact congrArg State.acc (Host.Outcome.next.inj ((step_hardwareReset hport).symm.trans h)).symm
  case instruction =>
    rw [step_request hport hr] at h
    exact exec_runningSum (s := s.withPort rest) hs h

/-! ### `ACC` over a run of instructions that do not clear it -/

/-- What the host may give between a clear of `ACC` and its reading: a well-formed instruction that does not clear it. -/
abbrev KeepsSum (i : Instr) : Prop := i.wellFormed = true ∧ i ≠ .ckClear ∧ i ≠ .sreset

/-- The events that give these instructions. -/
abbrev requests (is : List Instr) : List HostEvent := is.map fun i => .request (encode i)

theorem run_runningSum {is : List Instr} {rest : List HostEvent} {k : Nat} {s t : State} {L : List Byte}
    (his : ∀ i ∈ is, KeepsSum i) (hport : s.port = requests is ++ rest) (hs : s.acc = runningSum L)
    (h : run (is.length + k) s = .next t) :
    ∃ u, u.acc = runningSum (L ++ (is.map (addedBytes s.params)).flatten) ∧ u.port = rest ∧ run k u = .next t := by
  induction is generalizing s L with
  | nil => exact ⟨s, by simpa using hs, hport, by rwa [List.length_nil, Nat.zero_add] at h⟩
  | cons i is ih =>
    obtain ⟨⟨hwf, hclear, hsreset⟩, his⟩ := List.forall_mem_cons.mp his
    rw [List.length_cons, Nat.succ_add] at h
    obtain ⟨v, hstep, hrun⟩ := run_succ_cases h
    rw [step_request hport (decode_encode hwf)] at hstep
    have hacc := exec_runningSum (s := s.withPort (requests is ++ rest)) hs hstep
    rw [if_neg (by simp [hclear, hsreset])] at hacc
    obtain ⟨u, hsum, hrest, hu⟩ := ih his (exec_port hstep) hacc hrun
    refine ⟨u, ?_, hrest, hu⟩
    rw [hsum, exec_params hstep, List.map_cons, List.flatten_cons, List.append_assoc]
    rfl

/-- The step that clears `ACC`: CK_CLEAR, SRESET or a hardware reset. -/
theorem step_clears_acc {start : HostEvent} {rest : List HostEvent} {s t : State}
    (hstart : start ∈ [.request (encode .ckClear), .request (encode .sreset), .hardwareReset])
    (hport : s.port = start :: rest) (h : step s = .next t) :
    t.acc = runningSum [] ∧ t.port = rest ∧ t.params = s.params := by
  simp only [List.mem_cons, List.not_mem_nil, or_false] at hstart
  obtain rfl | rfl | rfl := hstart
  · rw [step_request hport (decode_encode rfl), exec_ckClear] at h
    obtain rfl := Host.Outcome.next.inj h
    exact ⟨rfl, rfl, rfl⟩
  · rw [step_request hport (decode_encode rfl), exec_sreset] at h
    obtain rfl := Host.Outcome.next.inj h
    exact ⟨rfl, rfl, rfl⟩
  · rw [step_hardwareReset hport] at h
    obtain rfl := Host.Outcome.next.inj h
    exact ⟨rfl, rfl, rfl⟩

/-- A run that begins by clearing `ACC` and does not clear it again. -/
theorem run_runningSum_from_clear {start : HostEvent} {is : List Instr} {rest : List HostEvent} {k : Nat} {s t : State}
    (hstart : start ∈ [.request (encode .ckClear), .request (encode .sreset), .hardwareReset])
    (his : ∀ i ∈ is, KeepsSum i) (hport : s.port = start :: (requests is ++ rest))
    (h : run (is.length + k + 1) s = .next t) :
    ∃ u, u.acc = runningSum (is.map (addedBytes s.params)).flatten ∧ u.port = rest ∧ run k u = .next t := by
  obtain ⟨v, hstep, hrun⟩ := run_succ_cases h
  obtain ⟨hacc, hvport, hparams⟩ := step_clears_acc hstart hport hstep
  rw [← hparams]
  exact run_runningSum (L := []) his hvport hacc hrun

/-- Settles O23: CK_READ turns the sum that `run_runningSum_from_clear` gives into the checksum. -/
theorem streamingSurvivesOtherOperations : Obligations.StreamingSurvivesOtherOperations := by
  unfold Obligations.StreamingSurvivesOtherOperations
  intro s t between hbetween program added h
  have hport : (s.issueAll program).port =
      .request (encode .ckClear) :: (requests between ++ (.request (encode .ckRead) :: s.port)) := by
    simp [State.issueAll, program]
  have hlength : program.length = between.length + 1 + 1 := by simp [program]
  rw [hlength] at h
  obtain ⟨u, hacc, huport, hu⟩ := run_runningSum_from_clear (by simp) hbetween hport h
  obtain ⟨v, hstep, hv⟩ := run_succ_cases hu
  rw [step_request huport (decode_encode rfl), exec_ckRead, State.withPort_acc, hacc] at hstep
  obtain rfl := Host.Outcome.next.inj hstep
  obtain rfl := Host.Outcome.next.inj hv
  exact ⟨checksum_of_runningSum added, rfl⟩

/-! ### The operations that leave `ACC` out -/

theorem exec_setAcc_of_leavesOut {i : Instr} {s t : State} (a : Byte)
    (hi : (∃ src dst cmd inp, i = .encode src dst cmd inp) ∨ (∃ inp explen, i = .decode inp explen) ∨
      (∃ inp, i = .cksum inp) ∨ (∃ inp, i = .ckVerify inp))
    (h : exec i s = .next t) : exec i (s.setAcc a) = .next (t.setAcc a) := by
  obtain ⟨src, dst, cmd, inp, rfl⟩ | ⟨inp, explen, rfl⟩ | ⟨inp, rfl⟩ | ⟨inp, rfl⟩ := hi
  · exact checked_map (g := (State.setAcc · a)) rfl h
  · exact parseFrame_map (g := (State.setAcc · a)) rfl (fun _ => rfl) rfl h
  · exact checked_map (g := (State.setAcc · a)) rfl h
  · exact checked_map (g := (State.setAcc · a)) rfl h

/-- Settles O24. -/
theorem accumulatorIsTheSumSinceTheLastClear : Obligations.AccumulatorIsTheSumSinceTheLastClear := by
  unfold Obligations.AccumulatorIsTheSumSinceTheLastClear
  refine ⟨fun s t start is rest hstart his h => ?run,
    fun i s t a hi h => ⟨?unwritten, exec_setAcc_of_leavesOut a hi h⟩⟩
  case run =>
    obtain ⟨u, hacc, hport, hu⟩ := run_runningSum_from_clear (k := 0) hstart his rfl h
    obtain rfl := Host.Outcome.next.inj hu
    exact ⟨hacc, hport⟩
  case unwritten =>
    by_contra hne
    obtain hk | hk := (exec_effect h).kind_of_acc_ne hne <;>
      obtain ⟨src, dst, cmd, inp, rfl⟩ | ⟨inp, explen, rfl⟩ | ⟨inp, rfl⟩ | ⟨inp, rfl⟩ := hi <;> cases hk

/-! ### The streaming program (R108) -/

/-- The CK_ADDs of the pieces carry `ACC` on by the sum of all of them. -/
theorem run_ckAdds {pieces : List (List Byte)} (program : List Instr) (k : Nat) {s : State} {L : List Byte}
    (hs : s.params.Legal) (hpieces : ∀ p ∈ pieces, p.length ≤ s.params.maxFrame) :
    run (pieces.length + k) (((s.setAcc (runningSum L)).complete).issueAll (pieces.map Instr.ckAdd ++ program)) =
      run k (((s.setAcc (runningSum (L ++ pieces.flatten))).complete).issueAll program) := by
  induction pieces generalizing L with
  | nil => simp
  | cons p pieces ih =>
    obtain ⟨hp, hpieces⟩ := List.forall_mem_cons.mp hpieces
    have hwf : (Instr.ckAdd p).wellFormed = true := decide_eq_true (hp.trans hs.maxFrame_le)
    have hexec : exec (.ckAdd p) (((s.setAcc (runningSum L)).complete).issueAll (pieces.map Instr.ckAdd ++ program)) =
        .next (((s.setAcc (runningSum (L ++ p))).complete).issueAll (pieces.map Instr.ckAdd ++ program)) := by
      rw [← runningSum_append]
      exact exec_ckAdd hp
    rw [List.length_cons, Nat.succ_add, List.map_cons, List.cons_append, run_issueAll (decode_encode hwf) _ _ hexec,
      ih hpieces, List.flatten_cons, List.append_assoc]

/-- Settles O22. -/
theorem streamingGivesTheChecksumOfTheConcatenation : Obligations.StreamingGivesTheChecksumOfTheConcatenation := by
  unfold Obligations.StreamingGivesTheChecksumOfTheConcatenation
  intro s pieces hs hpieces program
  have hlength : program.length = pieces.length + 1 + 1 := by simp [program]
  have hclear : exec .ckClear (s.issueAll (pieces.map Instr.ckAdd ++ [.ckRead])) =
      .next ((s.setAcc (runningSum [])).complete.issueAll (pieces.map Instr.ckAdd ++ [.ckRead])) := rfl
  have hprogram : program = .ckClear :: (pieces.map Instr.ckAdd ++ [.ckRead]) := rfl
  rw [hlength, hprogram, run_issueAll (decode_encode rfl) _ _ hclear, run_ckAdds [.ckRead] 1 hs hpieces,
    run_issueAll (decode_encode rfl) [] 0 (exec_ckRead _), run_zero, issueAll_nil, List.nil_append]
  simp only [State.complete_acc, State.setAcc_acc, checksum_of_runningSum]
  rw [runningSum_eq]
  rfl

end Sys2Proof.Machine
end

section
/-! PROOF. What the checksum detects (spec/40_checksum.md R101, R102, spec/42_response_parser.md R141, R143), and DECODE of
what ENCODE built (R142). -/

namespace Sys2Proof.Machine

/-! ### The trailing checksum -/

/-- R141: appended to a sequence, a byte makes it sum to zero exactly where it is the sequence's checksum. -/
theorem eq_checksum_iff (bs : List Byte) (b : Byte) : b = checksum bs ↔ byteSum (bs ++ [b]) % 256 = 0 := by
  have hb := b.isLt
  rw [← BitVec.toNat_inj, checksum_toNat, byteSum_append, byteSum_cons, byteSum_nil]
  omega

/-- Settles O20. -/
theorem zeroSumIsTheTrailingChecksum : Obligations.ZeroSumIsTheTrailingChecksum := by
  unfold Obligations.ZeroSumIsTheTrailingChecksum
  refine ⟨fun bs => ?_, eq_checksum_iff⟩
  have hzero := byteSum_with_checksum bs
  rwa [byteSum_append] at hzero

/-! ### One byte changed -/

theorem byteSum_set {bs : List Byte} {k : Nat} (v : Byte) (hk : k < bs.length) :
    byteSum (bs.set k v) + (bs.getD k 0#8).toNat = byteSum bs + v.toNat := by
  induction bs generalizing k with
  | nil => cases hk
  | cons b bs ih =>
    cases k with
    | zero => simp only [List.set_cons_zero, List.getD_cons_zero, byteSum_cons]; omega
    | succ k =>
      have := ih (Nat.lt_of_succ_lt_succ hk)
      simp only [List.set_cons_succ, List.getD_cons_succ, byteSum_cons]; omega

/-- Bytes differ by less than 256, so a change of one byte changes the sum mod 256. -/
theorem byteSum_set_mod_ne {bs : List Byte} {k : Nat} {v : Byte} (hk : k < bs.length) (hv : v ≠ bs.getD k 0#8) :
    byteSum (bs.set k v) % 256 ≠ byteSum bs % 256 := by
  have hsum := byteSum_set v hk
  have hnew := v.isLt
  have hold := (bs.getD k 0#8).isLt
  have hne : v.toNat ≠ (bs.getD k 0#8).toNat := mt BitVec.eq_of_toNat_eq hv
  omega

theorem xor_twoPow_ne {b : Nat} (hb : b < 8) (x : Byte) : x ^^^ BitVec.twoPow 8 b ≠ x := by
  intro h
  have hbit : (x ^^^ BitVec.twoPow 8 b).getLsbD b = x.getLsbD b := by rw [h]
  simp [hb] at hbit

/-- Settles O21: a bit flip is a change of one byte, which `byteSum_set_mod_ne` detects. -/
theorem checksumDetectsEverySingleBitError : Obligations.ChecksumDetectsEverySingleBitError := by
  unfold Obligations.ChecksumDetectsEverySingleBitError
  intro s bs k b hk hb hlen hzero
  have hne := byteSum_set_mod_ne hk (xor_twoPow_ne hb (bs.getD k 0#8))
  rw [exec_ckVerify (by rwa [List.length_set]), boolWord_sumsToZero, if_neg (fun h => hne (h.trans hzero.symm))]

/-! ### A frame that DECODE accepts, with one byte changed -/

/-- What an accepted frame has passed: the steps of R140 before the length byte's. -/
theorem parseFrame_accepted {inp : List Byte} {e : Nat} {s t : State} (h : parseFrame inp e s = .next t)
    (hok : t.status = 0#3) :
    ¬ BreaksDecodeContract s.params inp e ∧ inp.length = e ∧ inputByte inp 0 = startByte ∧
      byteSum (inp.drop 1) % 256 = 0 ∧ t = (s.acceptFrame inp).complete := by
  obtain ⟨-, h'⟩ | ⟨hlo, hhi, hfits, ⟨-, h'⟩ | ⟨-, -, h'⟩ | ⟨-, -, -, h'⟩ | ⟨-, -, -, -, h'⟩ |
    ⟨hlen, hstart, hsum, -, h'⟩⟩ := parseFrame_cases inp e s <;> obtain rfl := Host.Outcome.next.inj (h'.symm.trans h)
  case inr.inr.inr.inr.inr => exact ⟨by simp only [BreaksDecodeContract]; omega, hlen, hstart, hsum, rfl⟩
  all_goals exact absurd hok (by simp [Status.code])

/-- Settles O33: the flip leaves the frame's length, so the first check it can fail is the start byte's or, past that, the
sum's. -/
theorem singleBitFlipsAreDetected : Obligations.SingleBitFlipsAreDetected := by
  unfold Obligations.SingleBitFlipsAreDetected
  intro s t f k b hk hb hlen h hok
  have hflip := xor_twoPow_ne hb (f.getD k 0#8)
  rw [exec_decode, toNat_ofNat_byte hlen] at h ⊢
  obtain ⟨hc, -, hstart, hsum, -⟩ := parseFrame_accepted h hok
  generalize f.getD k 0#8 ^^^ BitVec.twoPow 8 b = v at hflip
  have hlen' : (f.set k v).length = f.length := List.length_set
  have hc' : ¬ BreaksDecodeContract s.params (f.set k v) f.length := by rwa [BreaksDecodeContract, hlen']
  cases k with
  | zero =>
    refine parseFrame_unmarked hc' hlen' ?_
    rw [inputByte, List.getD_eq_getElem?_getD, List.getElem?_set_self hk, Option.getD_some, ← hstart]
    exact hflip
  | succ k =>
    have hstart' : inputByte (f.set (k + 1) v) 0 = startByte := by cases f <;> exact hstart
    have hold : (f.drop 1).getD k 0#8 = f.getD (k + 1) 0#8 := by cases f <;> rfl
    refine parseFrame_bad_sum hc' hlen' hstart' ?_
    rw [List.drop_set, if_neg (by omega), Nat.add_sub_cancel, ← hsum]
    exact byteSum_set_mod_ne (by rw [List.length_drop]; omega) (by rwa [hold])

/-! ### The parse of a built frame -/

/-- Where the header holds the addresses and the command: its last three bytes (R62). -/
theorem inputByte_frame (c : Params) (src dst cmd : Byte) (p : List Byte) :
    inputByte (frame c src dst cmd p) (c.h - 3) = src ∧ inputByte (frame c src dst cmd p) (c.h - 2) = dst ∧
      inputByte (frame c src dst cmd p) (c.h - 1) = cmd := by
  cases hl : c.lengthByte <;> simp [frame, frameBody, Params.h, inputByte, hl]

theorem frame_payload (c : Params) (src dst cmd : Byte) (p : List Byte) :
    ((frame c src dst cmd p).drop c.h).take p.length = p := by
  cases hl : c.lengthByte <;> simp [frame, frameBody, Params.h, hl]

/-- R63: the length byte of a built frame counts what the parser expects, `INLEN - 3`. -/
theorem lengthByteWrong_frame {c : Params} {p : List Byte} (src dst cmd : Byte) (hp : p.length ≤ 249) :
    lengthByteWrong c (frame c src dst cmd p) = false := by
  rw [lengthByteWrong_eq_false_iff]
  intro hl
  have hbyte : (frame c src dst cmd p).getD 1 0x00#8 = BitVec.ofNat 8 (p.length + 3) := by
    simp [frame, frameBody, hl]
  rw [hbyte, toNat_ofNat_byte (by omega), frame_length, Params.h, if_pos hl]
  omega

/-- R142, for any parser that expects the frame's length: a built frame is accepted with the fields it was built of. -/
theorem parseFrame_frame {s : State} {p : List Byte} (src dst cmd : Byte) (hs : s.params.Legal)
    (hp : p.length ≤ s.params.maxPayload) :
    parseFrame (frame s.params src dst cmd p) (s.params.h + p.length + 1) s = .next { s with
      rxfSrc := src, rxfDst := dst, rxfCmd := cmd, rxfPlen := BitVec.ofNat 8 p.length
      rxfPayload := p ++ List.replicate (s.params.maxPayload - p.length) 0x00#8
      rxfValid := true, status := 0#3 } := by
  have hlen := frame_length s.params src dst cmd p
  have hc : ¬ BreaksDecodeContract s.params (frame s.params src dst cmd p) (s.params.h + p.length + 1) := by
    simp only [BreaksDecodeContract, hlen, Params.maxFrame]; omega
  rw [parseFrame_accepts hc hlen rfl (byteSum_frame_drop_one s.params src dst cmd p)
    (lengthByteWrong_frame src dst cmd (hp.trans hs.maxPayload_le)), State.complete_acceptFrame]
  obtain ⟨hsrc, hdst, hcmd⟩ := inputByte_frame s.params src dst cmd p
  simp only [inputByte] at hsrc hdst hcmd
  have hn : (frame s.params src dst cmd p).length - s.params.h - 1 = p.length := by omega
  simp only [hn, hsrc, hdst, hcmd, frame_payload]

/-- Settles O32: what ENCODE outputs is a frame, which `parseFrame_frame` parses. -/
theorem decodeReturnsWhatEncodeBuilt : Obligations.DecodeReturnsWhatEncodeBuilt := by
  unfold Obligations.DecodeReturnsWhatEncodeBuilt
  intro s src dst cmd p hs hp
  refine ⟨_, exec_encode src dst cmd hp, ?_⟩
  have hmax : s.params.h + s.params.maxPayload + 1 ≤ 255 := hs.maxFrame_le
  have holen : (s.writeOut (frame s.params src dst cmd p)).complete.olen.toNat = s.params.h + p.length + 1 := by
    rw [State.complete_olen, State.writeOut_olen, frame_length, toNat_ofNat_byte (by omega)]
  rw [exec_decode, holen, State.complete_output, output_writeOut_frame src dst cmd hs hp]
  exact parseFrame_frame (s := (s.writeOut (frame s.params src dst cmd p)).complete) src dst cmd hs hp

end Sys2Proof.Machine
end

section
/-! PROOF. The wire commands (spec/43_wire_commands.md R170 to R184): the table, the two forms (spec/30_encoding.md R79), and
each command's exchange. -/

namespace Sys2Proof.Machine

/-! ### The table -/

theorem limitPacker_eq (len : LimitLen) (v : Word24) :
    limitPacker len v = if len = .two then some (.pack16 v) else none := by
  cases len <;> rfl

/-- Settles O48. -/
theorem wireCommandTable : Obligations.WireCommandTable := by
  unfold Obligations.WireCommandTable
  intro p v row ack limit position
  have hlimit (len : LimitLen) : limitPacker len v = limit len := limitPacker_eq len v
  refine ⟨rfl, rfl, rfl, rfl, rfl, ?setMaxPos, ?setSlewLimit, rfl, rfl, rfl, rfl, rfl, rfl⟩
  case setMaxPos => rw [← hlimit]; rfl
  case setSlewLimit => rw [← hlimit]; rfl

theorem reqLen_le_three (p : Params) (c : WireCmd) : reqLen p c ≤ 3 := by
  cases c with
  | setMaxPos => cases h : p.lenSetMaxPos <;> simp [reqLen, h, LimitLen.toNat]
  | setSlewLimit => cases h : p.lenSetSlewLimit <;> simp [reqLen, h, LimitLen.toNat]
  | _ => simp [reqLen]

theorem rspLen_le_maxPayload {p : Params} (hp : p.Legal) (c : WireCmd) : rspLen p c ≤ p.maxPayload := by
  have hfour := hp.maxPayload_ge
  have hack := hp.ack_le
  have hversion := hp.version_le
  cases c <;> simp only [rspLen] <;> omega

/-! ### The two forms are an ENCODE and a DECODE -/

section
variable {s : State} {c : WireCmd}

theorem exec_request_eq_encode {payload : List Byte} (hlen : payload.length = reqLen s.params c) :
    exec (c.instr (.request payload)) s = exec (.encode 0x20#8 (cmdDst c) (cmdCode s.params c) payload) s := by
  rw [exec_instr]
  exact if_pos hlen

theorem exec_request_refused {payload : List Byte} (hlen : payload.length ≠ reqLen s.params c) :
    exec (c.instr (.request payload)) s = .refused .requestPayloadLength := by
  rw [exec_instr]
  exact if_neg hlen

theorem exec_response (received : List Byte) :
    exec (c.instr (.response received)) s = parseFrame received (s.params.h + rspLen s.params c + 1) s := by
  rw [exec_instr]
  rfl

theorem exec_response_eq_decode (hs : s.params.Legal) (received : List Byte) :
    exec (c.instr (.response received)) s =
      exec (.decode received (BitVec.ofNat 8 (s.params.h + rspLen s.params c + 1))) s := by
  have hmax : s.params.h + s.params.maxPayload + 1 ≤ 255 := hs.maxFrame_le
  have hrsp := rspLen_le_maxPayload hs c
  rw [exec_response, exec_decode, toNat_ofNat_byte (by omega)]

end

/-- Settles O49. -/
theorem wireFormsAreTheirExpansions : Obligations.WireFormsAreTheirExpansions := by
  unfold Obligations.WireFormsAreTheirExpansions
  exact fun s c hs => ⟨fun payload => exec_request_eq_encode, fun payload => exec_request_refused,
    exec_response_eq_decode hs⟩

/-! ### Frames written out -/

/-- R62: the bytes of a frame in both layouts, its checksum as the negation of a sum of bytes. -/
theorem frame_eq_ite (c : Params) (src dst cmd : Byte) (p : List Byte) :
    frame c src dst cmd p = if c.lengthByte
      then [0x3B#8, BitVec.ofNat 8 (p.length + 3), src, dst, cmd] ++ p ++
        [-(p.foldl (fun a b => a + b) (BitVec.ofNat 8 (p.length + 3) + src + dst + cmd))]
      else [0x3B#8, src, dst, cmd] ++ p ++ [-(p.foldl (fun a b => a + b) (src + dst + cmd))] := by
  cases hl : c.lengthByte <;> simp [frame, frameBody, hl, checksum_eq_neg_foldl, startByte]

section
variable {s : State} {c : WireCmd} {payload bs : List Byte}

/-- A command's request form outputs its frame, here `bs`. -/
theorem exec_request (hs : s.params.Legal) (hlen : payload.length = reqLen s.params c)
    (hframe : frame s.params 0x20#8 (cmdDst c) (cmdCode s.params c) payload = bs) :
    exec (c.instr (.request payload)) s = .next { s with
      obuf := bs ++ List.replicate (s.params.maxFrame - bs.length) 0x00#8
      olen := BitVec.ofNat 8 bs.length, status := 0#3 } := by
  have hfits : payload.length ≤ s.params.maxPayload := by
    have := reqLen_le_three s.params c; have := hs.maxPayload_ge; omega
  rw [exec_request_eq_encode hlen, exec_encode _ _ _ hfits, hframe, State.complete_writeOut]

/-- As `exec_request`, after a packer has written the payload to the output buffer. -/
theorem exec_request_packed (packed : List Byte) (hs : s.params.Legal) (hlen : payload.length = reqLen s.params c)
    (hframe : frame s.params 0x20#8 (cmdDst c) (cmdCode s.params c) payload = bs) :
    exec (c.instr (.request payload)) (s.writeOut packed).complete = .next { s with
      obuf := bs ++ List.replicate (s.params.maxFrame - bs.length) 0x00#8
      olen := BitVec.ofNat 8 bs.length, status := 0#3 } :=
  exec_request (s := (s.writeOut packed).complete) hs hlen hframe

/-- A command's response form accepts a frame, here `bs`, with a payload of `RSP_LEN` bytes. -/
theorem exec_response_frame {src dst cmd : Byte} (hs : s.params.Legal) (hlen : payload.length = rspLen s.params c)
    (hframe : frame s.params src dst cmd payload = bs) :
    exec (c.instr (.response bs)) s = .next { s with
      rxfSrc := src, rxfDst := dst, rxfCmd := cmd, rxfPlen := BitVec.ofNat 8 payload.length
      rxfPayload := payload ++ List.replicate (s.params.maxPayload - payload.length) 0x00#8
      rxfValid := true, status := 0#3 } := by
  have hfits : payload.length ≤ s.params.maxPayload := hlen.trans_le (rspLen_le_maxPayload hs c)
  rw [exec_response, ← hframe, ← hlen]
  exact parseFrame_frame src dst cmd hs hfits

end

/-! ### Packers and readers fit their command -/

section
variable {s t : State} {i : Instr} {v : Word24}

theorem limitPacker_output {len : LimitLen} (hi : limitPacker len v = some i) (h : exec i s = .next t)
    (hok : t.status = 0#3) : ∃ bs, bs.length = len.toNat ∧ t = (s.writeOut bs).complete := by
  cases len with
  | one => cases hi
  | two =>
    obtain rfl := Option.some.inj hi
    by_cases hv : v.toNat ≤ 0xFFFF
    · exact ⟨_, rfl, Host.Outcome.next.inj (h.symm.trans (exec_pack16 s hv))⟩
    · obtain rfl := Host.Outcome.next.inj (h.symm.trans (exec_pack16_contract s (Nat.lt_of_not_le hv)))
      exact absurd hok (by simp)

/-- A packer that completes outputs a payload of `REQ_LEN` bytes. -/
theorem requestPacker_output {c : WireCmd} (hi : requestPacker s.params v c = some i) (h : exec i s = .next t)
    (hok : t.status = 0#3) : ∃ bs, bs.length = reqLen s.params c ∧ t = (s.writeOut bs).complete := by
  have hpack24 (hv : some (.pack24 v) = some i) : ∃ bs, bs.length = 3 ∧ t = (s.writeOut bs).complete := by
    obtain rfl := Option.some.inj hv
    exact ⟨_, rfl, (Host.Outcome.next.inj h).symm⟩
  have hflagEnc (hv : some (.flagEnc v) = some i) : ∃ bs, bs.length = 1 ∧ t = (s.writeOut bs).complete := by
    obtain rfl := Option.some.inj hv
    exact ⟨_, rfl, (Host.Outcome.next.inj h).symm⟩
  cases c with
  | moveAbs => exact hpack24 hi
  | sync => exact hpack24 hi
  | setMaxPos => exact limitPacker_output hi h hok
  | setSlewLimit => exact limitPacker_output hi h hok
  | fanSet => exact hflagEnc hi
  | calSet => exact hflagEnc hi
  | _ => cases hi

/-- Every reader of a command's response is an extractor of a field within `RSP_LEN` bytes. -/
theorem responseReader_field {p : Params} {c : WireCmd} (hi : i ∈ responseReaders p c) :
    ∃ (off : Byte) (w : Nat), off.toNat + w ≤ rspLen p c ∧ ∀ t, ∃ v, exec i t = extractField off w v t := by
  have hflag (h : i ∈ [.flagDec 0#8]) :
      ∃ (off : Byte) (w : Nat), off.toNat + w ≤ 1 ∧ ∀ t, ∃ v, exec i t = extractField off w v t := by
    obtain rfl := List.mem_singleton.mp h
    exact ⟨0#8, 1, le_rfl, fun t => ⟨_, exec_flagDec 0#8 t⟩⟩
  cases c with
  | getPosition =>
    obtain rfl := List.mem_singleton.mp hi
    cases p.posSignedGetPosition
    · exact ⟨0#8, 3, le_rfl, fun t => ⟨_, exec_unpack24u 0#8 t⟩⟩
    · exact ⟨0#8, 3, le_rfl, fun t => ⟨_, exec_unpack24s 0#8 t⟩⟩
  | gotoDone => exact hflag hi
  | fanGet => exact hflag hi
  | fanSet => exact hflag hi
  | calGet => exact hflag hi
  | calSet => exact hflag hi
  | tempGet =>
    simp only [responseReaders, List.mem_cons, List.not_mem_nil, or_false] at hi
    obtain rfl | rfl := hi
    · exact ⟨0#8, 2, show 2 ≤ 4 by decide, fun t => ⟨_, exec_decS12 0#8 t⟩⟩
    · exact ⟨2#8, 2, le_rfl, fun t => ⟨_, exec_decS12 2#8 t⟩⟩
  | _ => cases hi

/-- An accepted response has its command's payload length. -/
theorem rxfPlen_of_response {c : WireCmd} {received : List Byte} (hs : s.params.Legal)
    (h : exec (c.instr (.response received)) s = .next t) (hok : t.status = 0#3) :
    t.rxfValid = true ∧ t.rxfPlen.toNat = rspLen s.params c := by
  rw [exec_response] at h
  obtain ⟨-, hlen, -, -, rfl⟩ := parseFrame_accepted h hok
  have hmax := hs.maxPayload_le
  have hrsp := rspLen_le_maxPayload hs c
  refine ⟨rfl, ?_⟩
  rw [State.complete_rxfPlen, State.acceptFrame_rxfPlen, toNat_ofNat_byte (by omega)]
  omega

end

/-- Settles O50. -/
theorem wirePackersAndReadersFit : Obligations.WirePackersAndReadersFit := by
  unfold Obligations.WirePackersAndReadersFit
  refine fun s t c hs => ⟨fun v i hi h hok => ?packer, fun received i h hok hi => ?reader⟩
  case packer =>
    obtain ⟨bs, hlen, rfl⟩ := requestPacker_output hi h hok
    have hthree := reqLen_le_three s.params c
    have hfits : bs.length ≤ s.params.maxPayload := by have := hs.maxPayload_ge; omega
    rw [State.complete_output, output_writeOut (by omega), exec_request_eq_encode (s := (s.writeOut bs).complete) hlen]
    refine ⟨_, exec_encode (s := (s.writeOut bs).complete) _ _ _ hfits, rfl, ?_⟩
    rw [State.complete_output, output_writeOut_frame (s := (s.writeOut bs).complete) _ _ _ hs hfits, frame_length, hlen]
    rfl
  case reader =>
    obtain ⟨hvalid, hplen⟩ := rxfPlen_of_response hs h hok
    obtain ⟨off, w, hoff, hfield⟩ := responseReader_field hi
    obtain ⟨v, hexec⟩ := hfield t
    exact ⟨_, hexec.trans (extractField_completes v hvalid (by rwa [hplen])), rfl⟩

/-! ### The position and flag readers -/

/-- A signed position (R146) as GET_POSITION's table gives it. -/
theorem ofInt_position24 (u : Nat) :
    BitVec.ofInt 32 (if u < 2 ^ 23 then (u : Int) else (u : Int) - 2 ^ 24) =
      if 2 ^ 23 ≤ u then BitVec.ofInt 32 ((u : Int) - 2 ^ 24) else BitVec.ofNat 32 u := by
  by_cases hu : u < 2 ^ 23
  · rw [if_pos hu, if_neg (Nat.not_le.mpr hu), BitVec.ofInt_natCast]
  · rw [if_neg hu, if_pos (Nat.not_lt.mp hu)]

/-- R149 of a response whose payload is one flag byte. -/
theorem exec_flagDec_of_payload {t : State} {f : Byte} {rest : List Byte} (hvalid : t.rxfValid = true)
    (hplen : t.rxfPlen = 1#8) (hpayload : t.rxfPayload = f :: rest) :
    exec (.flagDec 0#8) t = .next { t with result := if f = 0x00#8 then 0#32 else 1#32, status := 0#3 } := by
  have hread := (flagDecReadsAFlag.2 t 0#8).1 hvalid (by rw [hplen]; decide)
  have hbyte : t.rxfPayload.getD (0#8).toNat 0#8 = f := by rw [hpayload]; rfl
  rwa [hbyte] at hread

/-! ### The exchanges -/

/-- Settles O52: the position's number is that of the reader the table names, UNPACK24U (R145) or UNPACK24S (R146). -/
theorem getPositionExchange : Obligations.GetPositionExchange := by
  unfold Obligations.GetPositionExchange
  intro s b0 b1 b2 hs lb request response u t
  have hrequest : frame s.params 0x20#8 0x12#8 0x01#8 [] = request := frame_eq_ite ..
  have hresponse : frame s.params 0x12#8 0x20#8 0x01#8 [b0, b1, b2] = response := frame_eq_ite ..
  refine ⟨exec_request (c := .getPosition) hs rfl hrequest, exec_response_frame (c := .getPosition) hs rfl hresponse,
    fun i hi => ?reader⟩
  obtain rfl := List.mem_singleton.mp hi
  have hplen : (0#8).toNat + 3 ≤ t.rxfPlen.toNat := le_rfl
  cases s.params.posSignedGetPosition with
  | false => exact (unpack24uReadsAnUnsignedField.2 t 0#8).1 rfl hplen
  | true =>
    simp only [true_and, ← ofInt_position24]
    exact (unpack24sReadsASignedField.2 t 0#8).1 rfl hplen

/-- Settles O53. -/
theorem targetCommandsExchange : Obligations.TargetCommandsExchange := by
  unfold Obligations.TargetCommandsExchange
  intro s v ack hs hack cc hcc c t0 t1 t2 request
  have houtput : (s.writeOut (valBytes24 v)).complete.output = [t0, t1, t2] :=
    (output_writeOut_valBytes24 s v).trans (valBytes24_eq_digits v)
  have hrequest : frame s.params 0x20#8 0x12#8 c [t0, t1, t2] = request := frame_eq_ite ..
  obtain ⟨hdst, hcode, hreq, hrsp⟩ : cmdDst cc.1 = 0x12#8 ∧ cmdCode s.params cc.1 = c ∧ reqLen s.params cc.1 = 3 ∧
      rspLen s.params cc.1 = s.params.ackPayloadLen := by
    simp only [List.mem_cons, List.not_mem_nil, or_false] at hcc
    obtain rfl | rfl := hcc <;> exact ⟨rfl, rfl, rfl, rfl⟩
  refine ⟨⟨_, exec_pack24 v s, houtput, ?request⟩, exec_response_frame hs (hack.trans hrsp.symm) rfl⟩
  rw [houtput]
  exact exec_request_packed _ hs hreq.symm (by rw [hdst, hcode, hrequest])

/-- Settles O54. -/
theorem flagQueriesExchange : Obligations.FlagQueriesExchange := by
  unfold Obligations.FlagQueriesExchange
  intro s f hs cc hcc d c request response t
  simp only [List.mem_cons, List.not_mem_nil, or_false] at hcc
  have hrequest : frame s.params 0x20#8 d c [] = request := frame_eq_ite ..
  have hresponse : frame s.params d 0x20#8 c [f] = response := by
    obtain rfl | rfl | rfl := hcc <;> exact frame_eq_ite ..
  obtain ⟨hdst, hcode, hreq, hrsp, hreaders⟩ : cmdDst cc.1 = d ∧ cmdCode s.params cc.1 = c ∧
      reqLen s.params cc.1 = 0 ∧ rspLen s.params cc.1 = 1 ∧ responseReaders s.params cc.1 = [.flagDec 0#8] := by
    obtain rfl | rfl | rfl := hcc <;> exact ⟨rfl, rfl, rfl, rfl, rfl⟩
  refine ⟨exec_request hs hreq.symm (by rw [hdst, hcode, hrequest]),
    exec_response_frame (payload := [f]) hs hrsp.symm hresponse, fun i hi => ?reader⟩
  rw [hreaders] at hi
  obtain rfl := List.mem_singleton.mp hi
  exact exec_flagDec_of_payload rfl rfl rfl

/-- Settles O55. -/
theorem flagSettingsExchange : Obligations.FlagSettingsExchange := by
  unfold Obligations.FlagSettingsExchange
  intro s v f hs cc hcc d c g request response u
  simp only [List.mem_cons, List.not_mem_nil, or_false] at hcc
  have houtput : (s.writeOut [flagByte (v != 0#24)]).complete.output = [g] := by
    rw [State.complete_output, output_writeOut (by simp), flagByte_ne_zero]
  have hrequest : frame s.params 0x20#8 d c [g] = request := frame_eq_ite ..
  have hresponse : frame s.params d 0x20#8 c [f] = response := by
    obtain rfl | rfl := hcc <;> exact frame_eq_ite ..
  obtain ⟨hdst, hcode, hreq, hrsp, hreaders⟩ : cmdDst cc.1 = d ∧ cmdCode s.params cc.1 = c ∧
      reqLen s.params cc.1 = 1 ∧ rspLen s.params cc.1 = 1 ∧ responseReaders s.params cc.1 = [.flagDec 0#8] := by
    obtain rfl | rfl := hcc <;> exact ⟨rfl, rfl, rfl, rfl, rfl⟩
  refine ⟨⟨_, exec_flagEnc v s, houtput, ?request⟩,
    exec_response_frame (payload := [f]) hs hrsp.symm hresponse, fun i hi => ?reader⟩
  case request =>
    rw [houtput]
    exact exec_request_packed _ hs hreq.symm (by rw [hdst, hcode, hrequest])
  case reader =>
    rw [hreaders] at hi
    obtain rfl := List.mem_singleton.mp hi
    exact exec_flagDec_of_payload rfl rfl rfl

/-- The frame of a command to the motor with an empty payload, its checksum as the table of vectors writes it. -/
theorem frame_empty_request (p : Params) (c : Byte) :
    frame p 0x20#8 0x12#8 c [] = if p.lengthByte then [0x3B#8, 0x03#8, 0x20#8, 0x12#8, c, 0xCB#8 - c]
      else [0x3B#8, 0x20#8, 0x12#8, c, 0xCE#8 - c] := by
  simp only [frame_eq_ite, List.foldl_nil, BitVec.neg_add]
  rfl

/-- Settles O56. -/
theorem abortAndVersionExchange : Obligations.AbortAndVersionExchange := by
  unfold Obligations.AbortAndVersionExchange
  intro s bytes hs cc hcc c request
  have hrequest : frame s.params 0x20#8 0x12#8 c [] = request := frame_empty_request s.params c
  obtain ⟨hdst, hcode, hreq, hrsp⟩ : cmdDst cc.1 = 0x12#8 ∧ cmdCode s.params cc.1 = c ∧ reqLen s.params cc.1 = 0 ∧
      rspLen s.params cc.1 = cc.2.2 := by
    simp only [List.mem_cons, List.not_mem_nil, or_false] at hcc
    obtain rfl | rfl := hcc <;> exact ⟨rfl, rfl, rfl, rfl⟩
  exact ⟨exec_request hs hreq.symm (by rw [hdst, hcode, hrequest]),
    fun hlen => exec_response_frame hs (hlen.trans hrsp.symm) rfl⟩

/-- Settles O57. -/
theorem limitCommandsExchange : Obligations.LimitCommandsExchange := by
  unfold Obligations.LimitCommandsExchange
  intro s v b ack hs hack cc hcc c v0 v1 short long
  have houtput : (s.writeOut (valBytes16 v)).complete.output = [v0, v1] := by
    rw [State.complete_output, output_writeOut (by simp [valBytes16]), valBytes16_eq_digits]
  have hshort : frame s.params 0x20#8 0x12#8 c [b] = short := frame_eq_ite ..
  have hlong : frame s.params 0x20#8 0x12#8 c [v0, v1] = long := frame_eq_ite ..
  obtain ⟨hdst, hcode, hreq, hrsp⟩ : cmdDst cc.1 = 0x12#8 ∧ cmdCode s.params cc.1 = c ∧
      reqLen s.params cc.1 = cc.2.2.toNat ∧ rspLen s.params cc.1 = s.params.ackPayloadLen := by
    simp only [List.mem_cons, List.not_mem_nil, or_false] at hcc
    obtain rfl | rfl := hcc <;> exact ⟨rfl, rfl, rfl, rfl⟩
  refine ⟨fun hone => ?one, fun htwo hv => ⟨_, exec_pack16 s hv, houtput, ?two⟩,
    exec_response_frame hs (hack.trans hrsp.symm) rfl⟩
  case one => exact exec_request hs (by rw [hreq, hone]; rfl) (by rw [hdst, hcode, hshort])
  case two =>
    rw [houtput]
    exact exec_request_packed _ hs (by rw [hreq, htwo]; rfl) (by rw [hdst, hcode, hlong])

/-- A 12-bit reading (R147) of an accepted response: the nibble byte and the low byte are the two bytes at `off`. -/
theorem exec_decS12_of_payload {t : State} {off first second : Byte} (hvalid : t.rxfValid = true)
    (hoff : off.toNat + 2 ≤ t.rxfPlen.toNat) (hfirst : t.payloadByte off.toNat = first)
    (hsecond : t.payloadByte (off.toNat + 1) = second) :
    exec (.decS12 off) t = .next { t with
      result := if t.params.s12NibbleFirst then (first.setWidth 4 ++ second).signExtend 32
        else (second.setWidth 4 ++ first).signExtend 32
      status := 0#3 } := by
  have hfield : (t.field12 off).signExtend 32 = if t.params.s12NibbleFirst
      then (first.setWidth 4 ++ second).signExtend 32 else (second.setWidth 4 ++ first).signExtend 32 := by
    simp only [State.field12, hfirst, hsecond, BitVec.setWidth_eq_extractLsb' (show 4 ≤ 8 by decide)]
    cases t.params.s12NibbleFirst <;> rfl
  rw [exec_decS12, extractField_completes _ hvalid hoff, hfield]

/-- Settles O58: the readers are DEC_S12 at the primary sensor's offset and then at the secondary's (R72). -/
theorem tempGetExchange : Obligations.TempGetExchange := by
  unfold Obligations.TempGetExchange
  intro s t0 t1 t2 t3 hs c request response reading t
  have hrequest : frame s.params 0x20#8 0x12#8 c [] = request := frame_empty_request s.params c
  have hresponse : frame s.params 0x12#8 0x20#8 c [t0, t1, t2, t3] = response := by
    have hsum : frame s.params 0x12#8 0x20#8 c [t0, t1, t2, t3] = if s.params.lengthByte
        then [0x3B#8, 0x07#8, 0x12#8, 0x20#8, c, t0, t1, t2, t3, -(0x39#8 + c + t0 + t1 + t2 + t3)]
        else [0x3B#8, 0x12#8, 0x20#8, c, t0, t1, t2, t3, -(0x32#8 + c + t0 + t1 + t2 + t3)] := frame_eq_ite ..
    simp only [hsum, response, BitVec.neg_add, BitVec.reduceNeg]
  refine ⟨exec_request (c := .tempGet) hs rfl hrequest, exec_response_frame (c := .tempGet) hs rfl hresponse, ?readers⟩
  have hprimary := exec_decS12_of_payload (t := t) (off := 0#8) (first := t0) (second := t1) rfl
    (show 2 ≤ 4 by decide) rfl rfl
  have hsecondary := exec_decS12_of_payload (t := t) (off := 2#8) (first := t2) (second := t3) rfl
    (show 4 ≤ 4 by decide) rfl rfl
  simp only [responseReaders, List.map_cons, List.map_nil, hprimary, hsecondary]
  rfl

end Sys2Proof.Machine
end
